-- ==== Sys2Proof/Word.lean ====
section
/-! DEFINITION. The data types of the block's ports and records (00_scope.md R8 to R10; 30_encoding.md
R90, R94, R96, R99). Every bit vector here is one the spec treats as a word or a field of one. -/

namespace Sys2Proof

/-- An operation word on the widest bus any format needs: 108 bits (R90). Bit 0 is the least
significant bit (R8). -/
abbrev Word := BitVec 108

/-- One byte, the only access width of the payload space (R9, R62). -/
abbrev Byte := BitVec 8

/-- The document's `u32` (R9). -/
abbrev U32 := BitVec 32

/-- The payload of a frame: 8 bytes at addresses 0 to 7 (10_state.md R39). -/
abbrev Payload := Vector Byte 8

/-- The document's `CanFrame` (R99). `len` is a 4-bit field whose legal values are 0 to 8. -/
structure Frame where
  id : U32
  ext : Bool
  rtr : Bool
  len : BitVec 4
  data : Payload
  deriving DecidableEq, Repr, Inhabited

/-- The document's `BitTimingParams` (R103): plain values, none stored minus one. -/
structure BitTiming where
  prescaler : U32
  seg1 : Byte
  seg2 : Byte
  deriving DecidableEq, Repr, Inhabited

/-- The two instantiations of the number domain `NUM` (R10). -/
inductive NumDomain
  | rational
  | binary32
  deriving DecidableEq, Repr, Inhabited

/-- A value of `NUM`. The rational domain holds only `fin`. A binary32 pattern at an operand port may
also be an infinity or a NaN; no rule of the block produces one (R165). -/
inductive Num
  | fin (q : Rat)
  | inf (negative : Bool)
  | nan
  deriving DecidableEq, Repr

/-- What the `angle` operand of format S carries (R96): the rational itself on the side port, or the
IEEE pattern at bits 37:6 of the word. -/
inductive AnglePort
  | rational (q : Rat)
  | binary32 (bits : U32)
  deriving DecidableEq, Repr

end Sys2Proof
end

