-- ==== Sys2Proof/Config.lean ====
section
/-! DEFINITION. The parameters of the block (00_scope.md R7), which are fixed before reset and written
by no operation (10_state.md R36; 20_memory.md R75), and the free values the spec calls draws (R15). -/

namespace Sys2Proof

/-- `DUTY_POLARITY`: which phase of the sensor's pulse carries the angle (41_angle_decode.md R154). -/
inductive Polarity
  | high
  | low
  deriving DecidableEq, Repr, Inhabited

/-- What `RISE` hands to the capture cell after a wrap of `cnt`: the residues of 40_pwm_capture.md R139,
or any pair (93_implementation_defined.md U3). -/
inductive WrappedPair
  | residues
  | anyPair
  deriving DecidableEq, Repr, Inhabited

/-- What `MD_APPLY` does with a mode byte above 0x03 on a frame of full length: drop the frame
(44_can_mode_decode.md R236), or take it as `NORMAL`, the other outcome of 93 U5. -/
inductive UnknownMode
  | dropped
  | asNormal
  deriving DecidableEq, Repr, Inhabited

/-- Which of two candidates of one `TQ` at one distance wins: the smaller `seg2`
(42_can_bit_timing.md R185 step 3), or the larger, the other outcome of 93 U10. -/
inductive Seg2Tie
  | smaller
  | larger
  deriving DecidableEq, Repr, Inhabited

/-- Every parameter of R7, and the three behaviours that 93 U3, U5 and U10 leave to a parameter (log
entry 1). -/
structure Config where
  /-- `TICK_W`, fixed: 32. The words of 30_encoding.md R93 and R97 and the type `U32` have this width. -/
  tickW : Nat
  /-- `CNT_W`, the width of the timer counter. -/
  cntW : Nat
  /-- `DUTY_POLARITY`. -/
  polarity : Polarity
  /-- `NUM`. -/
  num : NumDomain
  /-- `TQ_MIN`. -/
  tqMin : Nat
  /-- `TQ_MAX`. -/
  tqMax : Nat
  /-- `SEG2_MIN`, fixed: 1. -/
  seg2Min : Nat
  /-- `SEG2_MAX`, fixed: 8. -/
  seg2Max : Nat
  /-- `SEG1_MIN`, fixed: 1. -/
  seg1Min : Nat
  /-- `SEG1_MAX`, fixed: 16. -/
  seg1Max : Nat
  /-- `PRESC_MIN`, fixed: 1. -/
  prescMin : Nat
  /-- `PRESC_MAX`, fixed: 1024. -/
  prescMax : Nat
  /-- The numerator of `SAMPLE_TARGET`, fixed: 7/8. -/
  targetNum : Nat
  /-- The denominator of `SAMPLE_TARGET`. -/
  targetDen : Nat
  /-- `FALLBACK_TIMING`: what a caller uses when the synthesis fails. No value is given, and no operation
  reads it (42_can_bit_timing.md R186; log entry 21). -/
  fallbackTiming : Option BitTiming
  /-- `MODE_OFFSET`, the byte offset of the mode byte in the payload, fixed: 2. -/
  modeOffset : Nat
  /-- `SHORT_FRAME_COMPAT`. -/
  shortFrameCompat : Bool
  /-- `FRAME_RECEIVED_NOTIFY`. -/
  frameNotify : Bool
  /-- `N`, the debounce window. -/
  debounceN : Nat
  /-- `TH_TURN`, in degrees. -/
  thTurn : Rat
  /-- `TH_CENTER`, in degrees. -/
  thCenter : Rat
  /-- `SAMPLE_PERIOD` in milliseconds: timing only, no operation reads it (70_reset_and_hazards.md R369; log
  entry 21). -/
  samplePeriodMs : Nat
  /-- `EV_W`, 8 by D19. The masks of 30_encoding.md R95 and the type `Byte` have this width. -/
  evW : Nat
  wrappedPair : WrappedPair
  unknownMode : UnknownMode
  seg2Tie : Seg2Tie
  deriving DecidableEq, Repr

/-- The values R7 calls fixed, and `EV_W`. -/
def Config.fixedValues (c : Config) : Bool :=
  decide (c.tickW = 32) && decide (c.seg2Min = 1) && decide (c.seg2Max = 8) && decide (c.seg1Min = 1)
    && decide (c.seg1Max = 16) && decide (c.prescMin = 1) && decide (c.prescMax = 1024)
    && decide (c.targetNum = 7) && decide (c.targetDen = 8) && decide (c.modeOffset = 2) && decide (c.evW = 8)

/-- The ranges within which every statement holds: those R7, R187, R234 and R281 give; the two widths of the
word formats; a prescaler of at least 1; segments within the 8 bits they are stored in; a positive target
denominator; and a positive turn threshold, which 90 is: without it one angle could pass both tests of
`CENTER`, which R283 says cannot happen (log entry 1). -/
def Config.wf (c : Config) : Bool :=
  decide (c.tickW = 32) && decide (1 ≤ c.cntW) && decide (c.cntW ≤ 32) && decide (1 ≤ c.tqMin)
    && decide (c.seg2Max ≤ 255) && decide (c.seg1Max ≤ 255) && decide (1 ≤ c.prescMin)
    && decide (0 < c.targetDen) && decide (c.modeOffset ≤ 7) && decide (1 ≤ c.debounceN)
    && decide (0 < c.thTurn) && decide (c.evW = 8)

/-- The default of every parameter (R7). `N` has none: 3, the value of the vectors of
95_test_vectors.md (DESIGN CHOICE, log entry 2). -/
def Config.default : Config where
  tickW := 32
  cntW := 32
  polarity := .high
  num := .rational
  tqMin := 8
  tqMax := 25
  seg2Min := 1
  seg2Max := 8
  seg1Min := 1
  seg1Max := 16
  prescMin := 1
  prescMax := 1024
  targetNum := 7
  targetDen := 8
  fallbackTiming := none
  modeOffset := 2
  shortFrameCompat := false
  frameNotify := true
  debounceN := 3
  thTurn := 90
  thCenter := 30
  samplePeriodMs := 20
  evW := 8
  wrappedPair := .residues
  unknownMode := .dropped
  seg2Tie := .smaller

/-- A draw of 32 bits (R15; 93 U2, U3). No body: nothing can be proved of its value (log entry 3). -/
opaque Config.freeU32 : Nat → U32
/-- A draw of 8 bits (R15; 93 U2). -/
opaque Config.freeByte : Nat → Byte
/-- A draw of a frame's five fields (R15; 93 U2). -/
opaque Config.freeFrame : Nat → Frame
/-- A draw of a `NUM` (R15; 93 U2). -/
opaque Config.freeAngle : Nat → Rat

end Sys2Proof
end

