-- ==== Sys2Proof/Syntax.lean ====
section
/-! DEFINITION. The 18 operations of the block (30_encoding.md R104), one constructor per row of
spec/opcode_table.json, with the operands of formats N, T, C, F, M and S (R91 to R96). -/

namespace Sys2Proof

/-- The operations. Operand fields are taken from the word as they stand (R100). -/
inductive Instr
  | idle
  | reset
  | tick
  | rise
  | fall
  | capture (period pulse : U32)
  | getAngle
  | btSynth (clockHz bitrateBps : U32)
  | rxFrame (frame : Frame)
  | recvNb
  | recvBlk (finite : Bool)
  | mdFetch (finite : Bool)
  | mdApply
  | evSet (mask : Byte)
  | evClear (mask : Byte)
  | evWait (mask : Byte) (clearOnExit finite : Bool)
  | fsmSample (valid : Bool) (angle : AnglePort)
  | canSend (frame : Frame) (txFree : Bool)
  deriving DecidableEq, Repr

/-- The mnemonic of R104 and of the written syntax (R114). -/
def mnemonic : Instr → String
  | .idle => "IDLE"
  | .reset => "RESET"
  | .tick => "TICK"
  | .rise => "RISE"
  | .fall => "FALL"
  | .capture _ _ => "CAPTURE"
  | .getAngle => "GET_ANGLE"
  | .btSynth _ _ => "BT_SYNTH"
  | .rxFrame _ => "RX_FRAME"
  | .recvNb => "RECV_NB"
  | .recvBlk _ => "RECV_BLK"
  | .mdFetch _ => "MD_FETCH"
  | .mdApply => "MD_APPLY"
  | .evSet _ => "EV_SET"
  | .evClear _ => "EV_CLEAR"
  | .evWait _ _ _ => "EV_WAIT"
  | .fsmSample _ _ => "FSM_SAMPLE"
  | .canSend _ _ => "CAN_SEND"

end Sys2Proof
end

