-- ==== Sys2Proof/WellFormed.lean ====
section
/-! DEFINITION. Which operations the interface can carry: the legal operand values of 30_encoding.md R111
and the form of the angle operand in each number domain (R96). -/

namespace Sys2Proof

/-- A frame length the document's `CanFrame` has: 0 to 8 (R99, R111). -/
def lengthLegal (len : BitVec 4) : Bool := decide (len.toNat ≤ 8)

/-- The angle operand has the form its number domain carries (R96). -/
def angleFits : NumDomain → AnglePort → Bool
  | .rational, .rational _ => true
  | .rational, .binary32 _ => false
  | .binary32, .rational _ => false
  | .binary32, .binary32 _ => true

/-- The operations a request can name. `CAN_SEND` accepts every `len` and answers `ok = 0` above 8
(R111), so only `RX_FRAME` restricts it; `CAPTURE` and `BT_SYNTH` accept every pair. -/
def WellFormed (dom : NumDomain) : Instr → Bool
  | .idle => true
  | .reset => true
  | .tick => true
  | .rise => true
  | .fall => true
  | .capture _ _ => true
  | .getAngle => true
  | .btSynth _ _ => true
  | .rxFrame f => lengthLegal f.len
  | .recvNb => true
  | .recvBlk _ => true
  | .mdFetch _ => true
  | .mdApply => true
  | .evSet _ => true
  | .evClear _ => true
  | .evWait _ _ _ => true
  | .fsmSample _ a => angleFits dom a
  | .canSend _ _ => true

end Sys2Proof
end

