-- ==== Sys2Proof/Decode.lean ====
section
/-! DEFINITION. The decoder and the encoder of operation words (30_encoding.md R90 to R104, R109 to R113). -/

namespace Sys2Proof

/-- Why a word names no operation; the request is then refused (R110). -/
inductive DecodeError
  /-- A selector of 0x12 to 0x1F (R109). -/
  | reservedSelector (op : BitVec 5)
  /-- `RX_FRAME` with `len` 9 to 15 (R111). -/
  | frameLength (len : BitVec 4)
  deriving DecidableEq, Repr

/-- Bits `lo + n - 1` down to `lo` of a word (R8). -/
def field (w : Word) (lo n : Nat) : BitVec n := w.extractLsb' lo n

/-- Bit `i` of a word, as a `bool` (R8, R9). -/
def flag (w : Word) (i : Nat) : Bool := w.getLsbD i

/-- The selector `op`, bits 4:0 (R90). -/
def selector (w : Word) : BitVec 5 := field w 0 5

/-- `payload[i]` stands at `data[8i+7:8i]` (20_memory.md R60; R94). -/
def unpackPayload (d : BitVec 64) : Payload :=
  #v[d.extractLsb' 0 8, d.extractLsb' 8 8, d.extractLsb' 16 8, d.extractLsb' 24 8,
     d.extractLsb' 32 8, d.extractLsb' 40 8, d.extractLsb' 48 8, d.extractLsb' 56 8]

/-- The inverse packing, byte 0 in the least significant byte (R60). -/
def packPayload (p : Payload) : BitVec 64 :=
  p[7] ++ p[6] ++ p[5] ++ p[4] ++ p[3] ++ p[2] ++ p[1] ++ p[0]

/-- The frame fields of format F (R94). -/
def frameField (w : Word) : Frame where
  id := field w 5 32
  ext := flag w 37
  rtr := flag w 38
  len := field w 39 4
  data := unpackPayload (field w 43 64)

/-- The angle operand of format S: the side port in the rational domain, bits 37:6 in binary32 (R96). -/
def angleField (dom : NumDomain) (w : Word) (side : Rat) : AnglePort :=
  match dom with
  | .rational => .rational side
  | .binary32 => .binary32 (field w 6 32)

/-- The width of the format a selector names (R90, R104, R113); 5 for a reserved selector, which has no
format. -/
def formatWidth (dom : NumDomain) (op : BitVec 5) : Nat :=
  match op.toNat with
  | 5 => 69
  | 7 => 69
  | 8 => 107
  | 10 => 6
  | 11 => 6
  | 13 => 15
  | 14 => 15
  | 15 => 15
  | 16 => match dom with
    | .rational => 6
    | .binary32 => 38
  | 17 => 108
  | _ => 5

/-- The decoder: total, a function of the selector first (R90), rejecting reserved selectors (R109) and
`RX_FRAME` with `len` above 8 (R111) by name. Bits above the format's width, and bits 14:13 of `EV_SET`
and `EV_CLEAR`, are ignored (R90, R95; log entry 13). -/
def decode (dom : NumDomain) (w : Word) (side : Rat) : Except DecodeError Instr :=
  match (selector w).toNat with
  | 0 => .ok .idle
  | 1 => .ok .reset
  | 2 => .ok .tick
  | 3 => .ok .rise
  | 4 => .ok .fall
  | 5 => .ok (.capture (field w 5 32) (field w 37 32))
  | 6 => .ok .getAngle
  | 7 => .ok (.btSynth (field w 5 32) (field w 37 32))
  | 8 =>
    if lengthLegal (frameField w).len then .ok (.rxFrame (frameField w))
    else .error (.frameLength (frameField w).len)
  | 9 => .ok .recvNb
  | 10 => .ok (.recvBlk (flag w 5))
  | 11 => .ok (.mdFetch (flag w 5))
  | 12 => .ok .mdApply
  | 13 => .ok (.evSet (field w 5 8))
  | 14 => .ok (.evClear (field w 5 8))
  | 15 => .ok (.evWait (field w 5 8) (flag w 13) (flag w 14))
  | 16 => .ok (.fsmSample (flag w 5) (angleField dom w side))
  | 17 => .ok (.canSend (frameField w) (flag w 107))
  | _ => .error (.reservedSelector (selector w))

/-- The instruction the decoder reads from `nbits` bits numbered as spec/opcode_table.json numbers them,
in the default number domain (exact rationals), whose side port then carries 0. -/
def decodeTableWord (nbits w : Nat) : Option Instr :=
  match decode Config.default.num (BitVec.ofNat 108 (w % 2 ^ nbits)) 0 with
  | .ok i => some i
  | .error _ => none

/-- The selector of each operation (R104). -/
def selectorOf : Instr → BitVec 5
  | .idle => 0x00
  | .reset => 0x01
  | .tick => 0x02
  | .rise => 0x03
  | .fall => 0x04
  | .capture _ _ => 0x05
  | .getAngle => 0x06
  | .btSynth _ _ => 0x07
  | .rxFrame _ => 0x08
  | .recvNb => 0x09
  | .recvBlk _ => 0x0A
  | .mdFetch _ => 0x0B
  | .mdApply => 0x0C
  | .evSet _ => 0x0D
  | .evClear _ => 0x0E
  | .evWait _ _ _ => 0x0F
  | .fsmSample _ _ => 0x10
  | .canSend _ _ => 0x11

/-- Format C (R93): `b` above `a` above `op`. -/
def formatC (op : BitVec 5) (a b : U32) : Word := (b ++ a ++ op : BitVec 69).setWidth 108

/-- The 107 bits of format F (R94). -/
def formatF (op : BitVec 5) (f : Frame) : BitVec 107 :=
  packPayload f.data ++ f.len ++ BitVec.ofBool f.rtr ++ BitVec.ofBool f.ext ++ f.id ++ op

/-- Format M (R95). -/
def formatM (op : BitVec 5) (mask : Byte) (clearOnExit finite : Bool) : Word :=
  (BitVec.ofBool finite ++ BitVec.ofBool clearOnExit ++ mask ++ op : BitVec 15).setWidth 108

/-- Formats T and S without an angle (R92, R96): one bit above `op`. -/
def formatT (op : BitVec 5) (b : Bool) : Word := (BitVec.ofBool b ++ op : BitVec 6).setWidth 108

/-- Format S in binary32 (R96): the pattern at bits 37:6. -/
def formatS32 (op : BitVec 5) (valid : Bool) (bits : U32) : Word :=
  (bits ++ BitVec.ofBool valid ++ op : BitVec 38).setWidth 108

/-- The operation word of an operation; ignored bits are 0. -/
def encode (i : Instr) : Word :=
  match i with
  | .capture a b => formatC (selectorOf i) a b
  | .btSynth a b => formatC (selectorOf i) a b
  | .rxFrame f => (formatF (selectorOf i) f).setWidth 108
  | .recvBlk b => formatT (selectorOf i) b
  | .mdFetch b => formatT (selectorOf i) b
  | .evSet m => formatM (selectorOf i) m false false
  | .evClear m => formatM (selectorOf i) m false false
  | .evWait m c b => formatM (selectorOf i) m c b
  | .fsmSample v (.rational _) => formatT (selectorOf i) v
  | .fsmSample v (.binary32 bits) => formatS32 (selectorOf i) v bits
  | .canSend f t => BitVec.ofBool t ++ formatF (selectorOf i) f
  | .idle | .reset | .tick | .rise | .fall | .getAngle | .recvNb | .mdApply =>
    (selectorOf i).setWidth 108

/-- What an operation puts on the rational side port (R96): 0 where it uses none. -/
def sidePort : Instr → Rat
  | .fsmSample _ (.rational q) => q
  | .fsmSample _ (.binary32 _) => 0
  | .idle | .reset | .tick | .rise | .fall | .capture _ _ | .getAngle | .btSynth _ _ | .rxFrame _
  | .recvNb | .recvBlk _ | .mdFetch _ | .mdApply | .evSet _ | .evClear _ | .evWait _ _ _
  | .canSend _ _ => 0

end Sys2Proof
end

