-- ==== Sys2Proof/Machine/State.lean ====
section
/-! DEFINITION. The state of the block (10_state.md R20 to R31, R42), its response port (30_encoding.md R97,
R98), and what the agents around it have still to request (60_exceptions.md R325 to R330). -/

namespace Sys2Proof.Machine

open Sys2Proof

/-- `lvl`, the last observed level of the input pin (10_state.md R23, R102). -/
inductive PinLevel
  | low
  | high
  | unknown
  deriving DecidableEq, Repr, Inhabited

/-- `steer`, the document's `SteeringState` (10_state.md R31). -/
inductive Steer
  | center
  | left
  | right
  deriving DecidableEq, Repr, Inhabited

/-- Where a request comes from: hardware outside any software context ("env" of R326), an interrupt
handler, or a task (60_exceptions.md R325, R326). -/
inductive Context
  | hardware
  | interrupt
  | task
  deriving DecidableEq, Repr, Inhabited

/-- The agents of the table of R330, one constructor per row. -/
inductive Role
  /-- The sensor pin and the timer clock. -/
  | sensor
  | captureInterrupt
  | receiveInterrupt
  | initialisation
  /-- The angle task, which is the steering task. -/
  | angleTask
  | decoderTask
  /-- A consumer task: lamp or display. -/
  | consumer
  /-- Another producer, an interrupt or a task. -/
  | producer
  /-- Another mailbox reader, instead of the decoder task. -/
  | mailboxReader
  | sender
  deriving DecidableEq, Repr, Inhabited

/-- One operation request: the context the environment issues it from, which lasts for that operation only
(60_exceptions.md R325), the operation word (30_encoding.md R90) and the rational side port of R96. -/
structure Request where
  ctx : Context
  word : Word
  side : Rat
  deriving DecidableEq, Repr

/-- One sequential agent: its row of the table of R330, and the requests it has still to issue, in its own
program order (60_exceptions.md R330; 20_memory.md R69). Their contexts may differ, as the initialisation's do:
env, then task. What the angle task and the decoder task issue after a response joins the list when the response
comes (`followUp`). -/
structure Agent where
  role : Role
  requests : List Request
  deriving DecidableEq, Repr

/-- One choice of the scheduler: which agent's next operation goes next, and whether a finite wait times
out now (70_reset_and_hazards.md R371). -/
structure Turn where
  agent : Nat
  expire : Bool
  deriving DecidableEq, Repr

/-- The response of the last operation (30_encoding.md R97). A failed response carries no value: its
fields are unspecified and an option type drops them (R98; log entry 11). -/
inductive Response
  /-- An operation with nothing to return has completed. -/
  | empty
  /-- The operation is not enabled: it has taken no step and has returned nothing (20_memory.md R77). -/
  | waiting
  /-- `GET_ANGLE`: `some` is `valid = 1`. -/
  | angle (relative : Option Rat)
  /-- `BT_SYNTH`: `some` is `found = 1`. -/
  | timing (params : Option BitTiming)
  /-- `RECV_NB`, `RECV_BLK`, `MD_FETCH`: `some` is `some = 1`. -/
  | frame (received : Option Frame)
  /-- `EV_WAIT`. -/
  | flags (observed : Byte) (timedOut : Bool)
  /-- `CAN_SEND`: `some f` is `ok = 1`, the frame `f` handed to the controller (R290; log entry 12). -/
  | sent (handed : Option Frame)
  deriving DecidableEq, Repr

/-- The state. Fields are the elements of 10_state.md under the spec's names, then the ports and the
model's own fields. -/
structure State where
  /-- The parameters the block was built with (R7); no operation writes them (log entry 1). -/
  cfg : Config
  /-- `cnt` (R21), `CNT_W` bits. -/
  cnt : U32
  /-- `ccr_period` (R22), `CNT_W` bits. -/
  ccrPeriod : U32
  /-- `ccr_pulse` (R22), `CNT_W` bits. -/
  ccrPulse : U32
  /-- `lvl` (R23). -/
  lvl : PinLevel
  /-- `armed` (R24). -/
  armed : Bool
  /-- `period_ticks` (R25). -/
  periodTicks : U32
  /-- `pulse_ticks` (R25). -/
  pulseTicks : U32
  /-- `has_new` (R25). -/
  hasNew : Bool
  /-- `zero_init` (R26). -/
  zeroInit : Bool
  /-- `zero_degrees` (R26), a `NUM` value. -/
  zeroDegrees : Rat
  /-- `bt_found` (R27). -/
  btFound : Bool
  /-- `bt_prescaler` (R27). -/
  btPrescaler : U32
  /-- `bt_seg1` (R27). -/
  btSeg1 : Byte
  /-- `bt_seg2` (R27). -/
  btSeg2 : Byte
  /-- `mb_id`, `mb_ext`, `mb_rtr`, `mb_len`, `mb_data` (R28). -/
  mb : Frame
  /-- `mb_full` (R28). -/
  mbFull : Bool
  /-- `md_id`, `md_ext`, `md_rtr`, `md_len`, `md_data` (R29). -/
  md : Frame
  /-- `md_have` (R29). -/
  mdHave : Bool
  /-- `ev` (R30, R34); read and written through `readEv` and `writeEv`. -/
  ev : Byte
  /-- `steer` (R31). -/
  steer : Steer
  /-- `cnt_left` (R31). -/
  cntLeft : Nat
  /-- `cnt_right` (R31). -/
  cntRight : Nat
  /-- `cnt_center` (R31). -/
  cntCenter : Nat
  /-- The response port (R97). -/
  resp : Response
  /-- The agents and what each has still to request (R330). -/
  agents : List Agent
  /-- The scheduler's choices still to come (R371). -/
  sched : List Turn
  /-- Whether the present turn lets a finite wait time out (R216, R264). -/
  expire : Bool
  /-- Whether the first `RESET` has happened (R350). -/
  started : Bool
  /-- The model's own: whether `cnt` wrapped since the last `RISE` (R139; log entry 15). -/
  wrapped : Bool
  /-- The model's own: how many free values have been drawn (log entry 3). -/
  draws : Nat
  deriving DecidableEq, Repr

/-- Why the machine stops with a fault. -/
inductive Fault
  /-- Raised by `GET_ANGLE` when a loop of `norm360` or `wrap180` does not end, which needs a binary32
  value far outside the block's range (41_angle_decode.md R166; 93 U12 "stuck"). Safe: no operation of
  the block reaches it from a state a run can be in (log entry 6). -/
  | angleLoopEndless
  deriving DecidableEq, Repr

/-- Why a request is refused: it is no operation of the block and takes no step (30_encoding.md R110).
Each is safe: the model stops and says so, as R110 asks (log entry 10). -/
inductive Refusal
  /-- Raised by an arm of `exec` whose operation has no meaning yet. Safe. -/
  | notModelled (mnemonic : String)
  /-- Raised by the step on a selector 0x12 to 0x1F (R109). Safe. -/
  | reservedSelector
  /-- Raised by the step and by `RX_FRAME` on a `len` above 8 (R111). Safe. -/
  | frameLength
  /-- Raised by `RISE` while `lvl` is high (R133). Safe. -/
  | riseWhileHigh
  /-- Raised by `FALL` while `lvl` is low (R134). Safe. -/
  | fallWhileLow
  /-- Raised by the step on a context the table of R326 does not allow. Safe. -/
  | contextForbidden
  /-- Raised by the step on any operation but `RESET` before the first `RESET` (R350; 93 U4). Safe. -/
  | beforeReset
  deriving DecidableEq, Repr

/-- A frame of zeros, the value State.reset names where R42 says "unspecified" (DESIGN CHOICE, log
entry 4). -/
def zeroFrame : Frame where
  id := 0
  ext := false
  rtr := false
  len := 0
  data := #v[0, 0, 0, 0, 0, 0, 0, 0]

/-- The state right after the power-up `RESET` (R42, R350): the spec's reset values; 0 for every element
R42 leaves unspecified (DESIGN CHOICE, log entry 4); nothing requested yet (log entry 7). -/
def State.reset : State where
  cfg := Config.default
  cnt := 0
  ccrPeriod := 0
  ccrPulse := 0
  lvl := .unknown
  armed := false
  periodTicks := 0
  pulseTicks := 0
  hasNew := false
  zeroInit := false
  zeroDegrees := 0
  btFound := false
  btPrescaler := 0
  btSeg1 := 0
  btSeg2 := 0
  mb := zeroFrame
  mbFull := false
  md := zeroFrame
  mdHave := false
  ev := 0x00
  steer := .center
  cntLeft := 0
  cntRight := 0
  cntCenter := 0
  resp := .empty
  agents := []
  sched := []
  expire := false
  started := true
  wrapped := false
  draws := 0

end Sys2Proof.Machine
end

