-- ==== Sys2Proof/Machine/Flags.lean ====
section
/-! DEFINITION. The event-flag register `ev` (10_state.md R30, R34, R35; 45_event_flags.md R261 to R267). -/

namespace Sys2Proof.Machine

open Sys2Proof

/-- `EV_VALID`: the seven named bits (R35). -/
def evValid : Byte := 0x7F
/-- `MODE_MASK`: bits 5, 4, 3 (R35). -/
def modeMask : Byte := 0x38
/-- `TURN_MASK`: bits 2, 1, 0 (R35). -/
def turnMask : Byte := 0x07
/-- `TURN_LEFT` (R35). -/
def turnLeft : Byte := 0x01
/-- `TURN_RIGHT` (R35). -/
def turnRight : Byte := 0x02
/-- `TURN_BACK` (R35). -/
def turnBack : Byte := 0x04
/-- `MODE_UP` (R35). -/
def modeUp : Byte := 0x08
/-- `MODE_DOWN` (R35). -/
def modeDown : Byte := 0x10
/-- `MODE_STOP` (R35). -/
def modeStop : Byte := 0x20
/-- `FRAME_RECEIVED` (R35). -/
def frameReceived : Byte := 0x40

/-- `x[ev]`: bit 7 reads 0 (R34). -/
def readEv (s : State) : Byte := s.ev &&& evValid

/-- `x[ev] <- v`: bit 7 ignores writes (R34). -/
def writeEv (s : State) (v : Byte) : State := { s with ev := v &&& evValid }

/-- `x[ev] <- x[ev] | (mask & 0x7F)` (45_event_flags.md R261). -/
def setFlags (s : State) (mask : Byte) : State := writeEv s (readEv s ||| (mask &&& evValid))

/-- `x[ev] <- x[ev] & ~mask` (45_event_flags.md R262). -/
def clearFlags (s : State) (mask : Byte) : State := writeEv s (readEv s &&& ~~~mask)

/-- The condition of `EV_WAIT`: at least one requested flag is up (R263). -/
def anyFlagUp (s : State) (mask : Byte) : Bool := decide (readEv s &&& mask &&& evValid ≠ 0)

/-- The maintenance policy of the mode decoder: nothing when the mode field equals `desired`, else clear
the three mode bits and set the desired one (44_can_mode_decode.md R238). -/
def maintainMode (s : State) (desired : Byte) : State :=
  if readEv s &&& modeMask = desired then s
  else writeEv s ((readEv s &&& ~~~modeMask) ||| desired)

/-- The consumers' convention on turn flags: `TURN_BACK` outranks the others (45_event_flags.md R267).
The block itself ranks nothing. -/
def dominantTurn (observed : Byte) : Byte :=
  if observed &&& turnBack ≠ 0 then turnBack else observed &&& (turnLeft ||| turnRight)

/-- The consumers' convention on mode flags: `MODE_STOP` outranks the others (45_event_flags.md R267). -/
def dominantMode (observed : Byte) : Byte :=
  if observed &&& modeStop ≠ 0 then modeStop else observed &&& (modeUp ||| modeDown)

end Sys2Proof.Machine
end

