-- ==== Sys2Proof/Machine/Number.lean ====
section
/-! DEFINITION. The number domain `NUM` (00_scope.md R10): exact rationals, and IEEE 754 binary32 as the
rationals it represents, each operation being the exact one followed by one rounding to nearest, ties to
even (41_angle_decode.md R165). Zero results are +0 (log entry 5). -/

namespace Sys2Proof.Machine

open Sys2Proof

/-- The quotient `n / d` of naturals rounded to the nearest integer, ties to even. -/
def divHalfEven (n d : Nat) : Nat :=
  if 2 * (n % d) > d then n / d + 1
  else if 2 * (n % d) < d then n / d
  else if n / d % 2 = 1 then n / d + 1
  else n / d

/-- The integer part of `log2 (n / d)` for positive `n` and `d`. -/
def floorLog2 (n d : Nat) : Int :=
  let e : Int := (Nat.log2 n : Int) - (Nat.log2 d : Int)
  if d * 2 ^ e.toNat ≤ n * 2 ^ (-e).toNat then e else e - 1

/-- The exponent of the last place of a binary32 number of exponent `e`: 23 below it, and never below
the last place -149 of the subnormal numbers. -/
def lastPlace (e : Int) : Int := max (e - 23) (-149)

/-- `n / d` counted in units of `2 ^ k`, rounded to nearest even. -/
def unitsOf (n d : Nat) (k : Int) : Nat := divHalfEven (n * 2 ^ (-k).toNat) (d * 2 ^ k.toNat)

/-- `m * 2 ^ k` as a rational. -/
def scaled (m : Int) (k : Int) : Rat := mkRat (m * 2 ^ k.toNat) (2 ^ (-k).toNat)

/-- Rounding to binary32, to nearest, ties to even. The exponent has no upper bound here: the block never
forms a value of magnitude above 2^32 (R165; log entry 5). -/
def roundB32 (q : Rat) : Rat :=
  let k := lastPlace (floorLog2 q.num.natAbs q.den)
  if q.num = 0 then 0 else scaled (q.num.sign * (unitsOf q.num.natAbs q.den k : Int)) k

/-- One rounding of the domain's arithmetic: none over the rationals (R164). -/
def numRound : NumDomain → Rat → Rat
  | .rational, q => q
  | .binary32, q => roundB32 q

/-- The document's `float` of a `u32` (R10, R165). -/
def ofU32 (dom : NumDomain) (n : U32) : Rat := numRound dom (n.toNat : Rat)

/-- The value of a binary32 pattern. -/
def b32Value (b : U32) : Num :=
  let negative := b.getLsbD 31
  let exponent := (b.extractLsb' 23 8).toNat
  let fraction := (b.extractLsb' 0 23).toNat
  let sign : Int := if negative then -1 else 1
  if exponent = 255 then (if fraction = 0 then .inf negative else .nan)
  else if exponent = 0 then .fin (scaled (sign * fraction) (-149))
  else .fin (scaled (sign * (2 ^ 23 + fraction : Nat)) ((exponent : Int) - 150))

/-- The binary32 pattern of a value rounded to binary32; the pattern of an infinity where the exponent is
too large for the format. -/
def b32Bits (q : Rat) : U32 :=
  let r := roundB32 q
  let n := r.num.natAbs
  let e := floorLog2 n r.den
  let units := unitsOf n r.den (lastPlace e)
  let sign : BitVec 1 := BitVec.ofBool (decide (r.num < 0))
  if r.num = 0 then 0
  else if e > 127 then sign ++ (0xFF : BitVec 8) ++ (0 : BitVec 23)
  else if e < -126 then sign ++ (0 : BitVec 8) ++ BitVec.ofNat 23 units
  else sign ++ BitVec.ofNat 8 (e + 127).toNat ++ BitVec.ofNat 23 (units - 2 ^ 23)

/-- The value an angle operand stands for (R96). -/
def angleValue : AnglePort → Num
  | .rational q => .fin q
  | .binary32 bits => b32Value bits

/-- `angle >= t`; false for a NaN, as IEEE 754 comparisons are (R10, R287). -/
def numGe : Num → Rat → Bool
  | .fin q, t => decide (t ≤ q)
  | .inf negative, _ => !negative
  | .nan, _ => false

/-- `angle <= t`; false for a NaN. -/
def numLe : Num → Rat → Bool
  | .fin q, t => decide (q ≤ t)
  | .inf negative, _ => negative
  | .nan, _ => false

/-- `while test x do x <- body x`, cut off after `fuel` turns: no value when the loop would go on. -/
def whileLoop (test : Rat → Bool) (body : Rat → Rat) : Nat → Rat → Option Rat
  | 0, x => if test x then none else some x
  | fuel + 1, x => if test x then whileLoop test body fuel (body x) else some x

/-- More turns than any ending loop of `norm360` or `wrap180` takes from `x`: a turn moves a rational by
360, and a binary32 value by at least 256 or not at all (log entry 6). -/
def turnBound (x : Rat) : Nat := x.num.natAbs / (256 * x.den) + 2

/-- The two loops of R155 and R158: subtract 360 while `above`, then add 360 while `below`. -/
def foldTurn (dom : NumDomain) (above below : Rat → Bool) (x : Rat) : Option Rat :=
  match whileLoop above (fun y => numRound dom (y - 360)) (turnBound x) x with
  | none => none
  | some y => whileLoop below (fun z => numRound dom (z + 360)) (turnBound y) y

/-- `norm360` (41_angle_decode.md R155). -/
def norm360 (dom : NumDomain) (x : Rat) : Option Rat :=
  foldTurn dom (fun y => decide (360 ≤ y)) (fun y => decide (y < 0)) x

/-- `wrap180`, closed at both ends (41_angle_decode.md R158). -/
def wrap180 (dom : NumDomain) (x : Rat) : Option Rat :=
  foldTurn dom (fun y => decide (180 < y)) (fun y => decide (y < -180)) x

end Sys2Proof.Machine
end

