-- ==== Sys2Proof/Machine/Operands.lean ====
section
/-! DEFINITION. Operand forms and response words: the byte a payload address names (10_state.md R39), the
angle operand's tests (46_adjacent_units.md R281), and the layout of responses (30_encoding.md R97). -/

namespace Sys2Proof.Machine

open Sys2Proof

/-- `MemRead(a, 1)` on a payload (R11, R39). -/
def memRead (p : Payload) (a : Fin 8) : Byte := p[a]

/-- `MemWrite(a, 1, v)` on a payload (R11, R39). -/
def memWrite (p : Payload) (a : Fin 8) (v : Byte) : Payload := p.set a v

/-- The loop of `RX_FRAME` (43_can_receive.md R212): the operand's byte `i` is written at address `i`, for
`i` in 0 to 7. -/
def memWriteAll (p data : Payload) : Payload :=
  (List.finRange 8).foldl (fun q i => memWrite q i (memRead data i)) p

/-- The frame `RX_FRAME` leaves in the mailbox (R212). -/
def storeFrame (old new : Frame) : Frame where
  id := new.id
  ext := new.ext
  rtr := new.rtr
  len := new.len
  data := memWriteAll old.data new.data

/-! In binary32 too the threshold is the configuration's rational, not rounded: the spec gives 90 and 30, which
are binary32 values (R10), and no `NUM` form of any other. THE MODEL'S CHOICE (DESIGN CHOICE, log entry 24). -/

/-- `angle >= TH_TURN` (R281; log entry 24). -/
def turnsLeft (cfg : Config) (a : AnglePort) : Bool := numGe (angleValue a) cfg.thTurn

/-- `angle <= -TH_TURN` (R281; log entry 24). -/
def turnsRight (cfg : Config) (a : AnglePort) : Bool := numLe (angleValue a) (-cfg.thTurn)

/-- `-TH_CENTER <= angle and angle <= TH_CENTER` (R281; log entry 24). -/
def nearCenter (cfg : Config) (a : AnglePort) : Bool :=
  numGe (angleValue a) (-cfg.thCenter) && numLe (angleValue a) cfg.thCenter

/-- The angle operand that carries a value in a number domain (R96): how the response of `GET_ANGLE`
becomes the operand of `FSM_SAMPLE` (R115). -/
def anglePortOf : NumDomain → Rat → AnglePort
  | .rational, q => .rational q
  | .binary32, q => .binary32 (b32Bits q)

/-- Whether an operation has completed, or is waiting (20_memory.md R77). -/
def completed : Response → Bool
  | .waiting => false
  | .empty | .angle _ | .timing _ | .frame _ | .flags _ _ | .sent _ => true

/-- The response word of R97, at its own width in bits, or `none` while the operation waits. `fill` stands
for the unspecified value fields of a failed response (R98). In the rational domain an angle is on the
side port and the word is its `valid` bit (R97). -/
def responseWord (dom : NumDomain) (fill : Nat) : Response → Option (Nat × Nat)
  | .waiting => none
  | .empty => some (0, 0)
  | .angle (some q) => match dom with
    | .rational => some (1, 1)
    | .binary32 => some (33, (b32Bits q ++ 1#1 : BitVec 33).toNat)
  | .angle none => match dom with
    | .rational => some (1, 0)
    | .binary32 => some (33, (BitVec.ofNat 32 fill ++ 0#1 : BitVec 33).toNat)
  | .timing (some t) => some (49, (t.seg2 ++ t.seg1 ++ t.prescaler ++ 1#1 : BitVec 49).toNat)
  | .timing none => some (49, (BitVec.ofNat 48 fill ++ 0#1 : BitVec 49).toNat)
  | .frame (some f) =>
    some (103, (packPayload f.data ++ f.len ++ BitVec.ofBool f.rtr ++ BitVec.ofBool f.ext ++ f.id ++ 1#1
      : BitVec 103).toNat)
  | .frame none => some (103, (BitVec.ofNat 102 fill ++ 0#1 : BitVec 103).toNat)
  | .flags observed timedOut => some (9, (BitVec.ofBool timedOut ++ observed : BitVec 9).toNat)
  | .sent (some _) => some (1, 1)
  | .sent none => some (1, 0)

end Sys2Proof.Machine
end

