-- ==== Sys2Proof/Machine/Ops.lean ====
section
/-! DEFINITION. The operations several meanings share. There is no exception entry or return among them:
the block never traps (60_exceptions.md R310, R323, R324). -/

namespace Sys2Proof.Machine

open Sys2Proof

/-- The one type of every meaning's answer. -/
abbrev Answer := Host.Outcome State Fault Refusal

/-- The operation completes with the response `r` (30_encoding.md R97). -/
def respond (s : State) (r : Response) : Answer := .next { s with resp := r }

/-- The low `CNT_W` bits of a value: the width of `cnt` and of the latches (10_state.md R21, R22). -/
def truncTicks (cfg : Config) (v : U32) : U32 := BitVec.ofNat 32 (v.toNat % 2 ^ cfg.cntW)

/-- The counter after one tick, modulo `2^CNT_W` (40_pwm_capture.md R131, R132). -/
def nextCount (cfg : Config) (v : U32) : U32 := BitVec.ofNat 32 ((v.toNat + 1) % 2 ^ cfg.cntW)

/-- The body of the capture interrupt handler (40_pwm_capture.md R136). -/
def storeCapture (s : State) (period pulse : U32) : State :=
  { s with periodTicks := period, pulseTicks := pulse, hasNew := true }

/-- The pair a `RISE` hands to the capture cell when `cnt` wrapped since the `RISE` before: the residues,
or two free values (40_pwm_capture.md R139; 93 U3; log entry 15). -/
def storeWrappedCapture (s : State) (period pulse : U32) : State :=
  match s.cfg.wrappedPair with
  | .residues => storeCapture s period pulse
  | .anyPair =>
    { storeCapture s (Config.freeU32 s.draws) (Config.freeU32 (s.draws + 1)) with draws := s.draws + 2 }

/-- `FRAME_RECEIVED` follows the mailbox when `FRAME_RECEIVED_NOTIFY` is on (43_can_receive.md R218). -/
def notifyFrame (s : State) : State := if s.cfg.frameNotify then setFlags s frameReceived else s

/-- The clear of `FRAME_RECEIVED` by a drain (43_can_receive.md R218). -/
def unnotifyFrame (s : State) : State := if s.cfg.frameNotify then clearFlags s frameReceived else s

/-- The drain of a full mailbox, less its response (43_can_receive.md R214). -/
def drainMailbox (s : State) : State := unnotifyFrame { s with mbFull := false }

/-- A wait whose condition is false: the timeout response where the wait is finite and the scheduler lets
it time out, else no step yet (20_memory.md R77; 43_can_receive.md R216; 45_event_flags.md R264). -/
def waitOrExpire (s : State) (finite : Bool) (timeout : Response) : Answer :=
  if finite && s.expire then respond s timeout else respond s .waiting

/-- The three debounce counters back to 0 (46_adjacent_units.md R282). -/
def clearCounters (s : State) : State := { s with cntLeft := 0, cntRight := 0, cntCenter := 0 }

/-- A transition of the steering state machine: the new state, its flag, and a fresh run
(46_adjacent_units.md R283). -/
def enterSteer (s : State) (target : Steer) (turn : Byte) : State :=
  clearCounters (setFlags { s with steer := target } turn)

end Sys2Proof.Machine
end

