-- ==== Sys2Proof/Machine/Adjacent.lean ====
section
/-! DEFINITION. The adjacent units: `FSM_SAMPLE`, one step of the steering-intent state machine, and
`CAN_SEND`, the transmit entry (46_adjacent_units.md R280 to R291). -/

namespace Sys2Proof.Machine

open Sys2Proof

/-- A debounce counter after a valid sample: one more, or 0 when the sample fails its test (R282). -/
def countRun (passes : Bool) (n : Nat) : Nat := if passes then n + 1 else 0

/-- A valid sample in `CENTER` (R283): the tests `>= N` read the counters just updated. -/
def sampleCenter (s : State) (angle : AnglePort) : State :=
  let t := { s with
    cntLeft := countRun (turnsLeft s.cfg angle) s.cntLeft
    cntRight := countRun (turnsRight s.cfg angle) s.cntRight }
  if s.cfg.debounceN ≤ t.cntLeft then enterSteer t .left turnLeft
  else if s.cfg.debounceN ≤ t.cntRight then enterSteer t .right turnRight
  else t

/-- A valid sample in `LEFT` or `RIGHT` (R283): only a return to `CENTER` is checked. -/
def sampleTurned (s : State) (angle : AnglePort) : State :=
  let t := { s with cntCenter := countRun (nearCenter s.cfg angle) s.cntCenter }
  if s.cfg.debounceN ≤ t.cntCenter then enterSteer t .center turnBack else t

/-- `FSM_SAMPLE` (R283): an invalid sample resets the counters and keeps the state; its `angle` is
ignored. -/
def execFsmSample (valid : Bool) (angle : AnglePort) (s : State) : Answer :=
  if valid then
    match s.steer with
    | .center => respond (sampleCenter s angle) .empty
    | .left | .right => respond (sampleTurned s angle) .empty
  else respond (clearCounters s) .empty

/-- `CAN_SEND` (R290): length before slot (R314); no element of the block changes (R291). -/
def execCanSend (frame : Frame) (txFree : Bool) (s : State) : Answer :=
  if 8 < frame.len.toNat then respond s (.sent none)
  else if txFree = false then respond s (.sent none)
  else respond s (.sent (some frame))

end Sys2Proof.Machine
end

