-- ==== Sys2Proof/Machine/Angle.lean ====
section
/-! DEFINITION. The angle decode: `GET_ANGLE` (41_angle_decode.md R150 to R165). -/

namespace Sys2Proof.Machine

open Sys2Proof

/-- The labels of the ways `GET_ANGLE` fails (R162; 60_exceptions.md R311). They are stored nowhere and
seen at no port. -/
inductive AngleFailure
  | noNewCapture
  | zeroPeriod
  | zeroPulse
  | pulseGePeriod
  | zeroingSample
  deriving DecidableEq, Repr

/-- The first failing check of `GET_ANGLE`, in the order of R311 and R321: no capture (R151), the validity
filter (R152), the zeroing sample (R156). -/
def angleFailure (s : State) : Option AngleFailure :=
  if s.hasNew = false then some .noNewCapture
  else if s.periodTicks = 0 then some .zeroPeriod
  else if s.pulseTicks = 0 then some .zeroPulse
  else if s.pulseTicks.toNat ≥ s.periodTicks.toNat then some .pulseGePeriod
  else if s.zeroInit = false then some .zeroingSample
  else none

/-- `duty = pulse / period` (R153): the division first. -/
def dutyOf (cfg : Config) (period pulse : U32) : Rat :=
  numRound cfg.num (ofU32 cfg.num pulse / ofU32 cfg.num period)

/-- `absolute_degrees` before normalisation (R154). -/
def phaseAngle (cfg : Config) (duty : Rat) : Rat :=
  match cfg.polarity with
  | .high => numRound cfg.num (duty * 360)
  | .low => numRound cfg.num (numRound cfg.num (1 - duty) * 360)

/-- The absolute angle of an accepted pair (R153 to R155). -/
def absoluteAngle (cfg : Config) (period pulse : U32) : Option Rat :=
  norm360 cfg.num (phaseAngle cfg (dutyOf cfg period pulse))

/-- The relative angle (R157): `wrap180 (absolute - zero)`, the subtraction in `NUM`. -/
def relativeAngle (cfg : Config) (absolute zero : Rat) : Option Rat :=
  wrap180 cfg.num (numRound cfg.num (absolute - zero))

/-- An accepted pair while there is no zero reference: it becomes the reference (R156). -/
def takeZero (s : State) : Answer :=
  match absoluteAngle s.cfg s.periodTicks s.pulseTicks with
  | none => .fault .angleLoopEndless
  | some a => respond { s with hasNew := false, zeroDegrees := a, zeroInit := true } (.angle none)

/-- An accepted pair once there is a zero reference (R157). -/
def takeRelative (s : State) : Answer :=
  match absoluteAngle s.cfg s.periodTicks s.pulseTicks with
  | none => .fault .angleLoopEndless
  | some a =>
    match relativeAngle s.cfg a s.zeroDegrees with
    | none => .fault .angleLoopEndless
    | some r => respond { s with hasNew := false } (.angle (some r))

/-- `GET_ANGLE` (R150): read-and-clear (R161), every failure `valid = 0` (R162). -/
def execGetAngle (s : State) : Answer :=
  match angleFailure s with
  | some .noNewCapture => respond s (.angle none)
  | some .zeroPeriod => respond { s with hasNew := false } (.angle none)
  | some .zeroPulse => respond { s with hasNew := false } (.angle none)
  | some .pulseGePeriod => respond { s with hasNew := false } (.angle none)
  | some .zeroingSample => takeZero s
  | none => takeRelative s

end Sys2Proof.Machine
end

