-- ==== Sys2Proof/Machine/BitTiming.lean ====
section
/-! DEFINITION. The CAN bit-rate parameter synthesizer: `BT_SYNTH` (42_can_bit_timing.md R180 to R192). All
arithmetic is on naturals and exact. -/

namespace Sys2Proof.Machine

open Sys2Proof

/-- A candidate of the search: a total time-quantum count and a segment-2 width (R181). -/
structure Candidate where
  tq : Nat
  seg2 : Nat
  deriving DecidableEq, Repr

/-- The naturals from `lo` to `hi`, both included; none when `hi < lo`. -/
def interval (lo hi : Nat) : List Nat := List.range' lo (hi + 1 - lo)

/-- The search space: every `TQ` in range with every `seg2` in range, 1 to 8 (R181). -/
def searchSpace (cfg : Config) : List Candidate :=
  (interval cfg.tqMin cfg.tqMax).flatMap fun tq =>
    (interval cfg.seg2Min cfg.seg2Max).map fun seg2 => { tq := tq, seg2 := seg2 }

/-- `seg1 = TQ - 1 - seg2`, possibly zero or negative before it is tested (R182). -/
def seg1Of (c : Candidate) : Int := (c.tq : Int) - 1 - (c.seg2 : Int)

/-- `prescaler = clock_hz / (bitrate_bps * TQ)` (R182). -/
def prescalerOf (clockHz bitrateBps : Nat) (c : Candidate) : Nat := clockHz / (bitrateBps * c.tq)

/-- The acceptance conditions (R183, R187): a non-zero divisor, exact division, and the ranges of the
prescaler and of `seg1`. -/
def accepted (cfg : Config) (clockHz bitrateBps : Nat) (c : Candidate) : Bool :=
  decide (bitrateBps * c.tq ≠ 0)
    && decide (clockHz % (bitrateBps * c.tq) = 0)
    && decide (cfg.prescMin ≤ prescalerOf clockHz bitrateBps c)
    && decide (prescalerOf clockHz bitrateBps c ≤ cfg.prescMax)
    && decide ((cfg.seg1Min : Int) ≤ seg1Of c)
    && decide (seg1Of c ≤ (cfg.seg1Max : Int))

/-- The distance of the sample point `(1 + seg1)/TQ = (TQ - seg2)/TQ` from the target, times `TQ` and the
target's denominator: `|TQ - 8*seg2|` for the target 7/8 (R184). -/
def offTarget (cfg : Config) (c : Candidate) : Nat :=
  ((cfg.targetDen : Int) * ((c.tq : Int) - (c.seg2 : Int)) - (cfg.targetNum : Int) * (c.tq : Int)).natAbs

/-- The distance of `c` is below that of `d`, by cross-multiplication (R184). -/
def closer (cfg : Config) (c d : Candidate) : Bool :=
  decide (offTarget cfg c * d.tq < offTarget cfg d * c.tq)

/-- Step 3 of the selection order: the smaller `seg2` (R185), or the larger (93 U10; log entry 17). -/
def seg2Preferred (tie : Seg2Tie) (c d : Candidate) : Bool :=
  match tie with
  | .smaller => decide (c.seg2 < d.seg2)
  | .larger => decide (d.seg2 < c.seg2)

/-- `c` is preferred to `d` (R185): nearer the target; then the larger `TQ`; then by `seg2`. -/
def preferred (cfg : Config) (c d : Candidate) : Bool :=
  closer cfg c d
    || (!closer cfg d c
      && (decide (d.tq < c.tq) || (decide (c.tq = d.tq) && seg2Preferred cfg.seg2Tie c d)))

/-- The least element of a list in the order of R185. -/
def bestOf (cfg : Config) : List Candidate → Option Candidate
  | [] => none
  | c :: cs =>
    match bestOf cfg cs with
    | none => some c
    | some d => if preferred cfg d c then some d else some c

/-- The winner of the search (R180). -/
def winner (cfg : Config) (clockHz bitrateBps : U32) : Option Candidate :=
  bestOf cfg ((searchSpace cfg).filter (accepted cfg clockHz.toNat bitrateBps.toNat))

/-- The parameters of a candidate at the widths they are stored at (R187). -/
def paramsOf (clockHz bitrateBps : U32) (c : Candidate) : BitTiming where
  prescaler := BitVec.ofNat 32 (prescalerOf clockHz.toNat bitrateBps.toNat c)
  seg1 := BitVec.ofNat 8 (seg1Of c).toNat
  seg2 := BitVec.ofNat 8 c.seg2

/-- The document's `compute_bit_timing` (R180): a function of the operands and the parameters alone. -/
def synthesize (cfg : Config) (clockHz bitrateBps : U32) : Option BitTiming :=
  (winner cfg clockHz bitrateBps).map (paramsOf clockHz bitrateBps)

/-- The fixed table of R192: `(TQ, seg1, seg2)` in the preference order, for the default range 8 to 25. -/
def timingTable : List (Nat × Nat × Nat) :=
  [(16, 13, 2), (8, 6, 1), (17, 14, 2), (15, 12, 2), (18, 15, 2), (9, 7, 1), (14, 11, 2), (19, 16, 2),
   (20, 16, 3), (10, 8, 1), (13, 10, 2), (11, 9, 1), (12, 10, 1), (21, 16, 4), (22, 16, 5), (23, 16, 6),
   (24, 16, 7), (25, 16, 8)]

/-- The walk of R192: the first row whose `TQ` divides exactly with a prescaler in 1 to 1024. -/
def tableSynthesize (clockHz bitrateBps : U32) : Option BitTiming :=
  let fits (row : Nat × Nat × Nat) : Bool :=
    let d := bitrateBps.toNat * row.1
    decide (d ≠ 0) && decide (clockHz.toNat % d = 0) && decide (1 ≤ clockHz.toNat / d)
      && decide (clockHz.toNat / d ≤ 1024)
  (timingTable.find? fits).map fun row =>
    { prescaler := BitVec.ofNat 32 (clockHz.toNat / (bitrateBps.toNat * row.1))
      seg1 := BitVec.ofNat 8 row.2.1
      seg2 := BitVec.ofNat 8 row.2.2 }

/-- `BT_SYNTH` (R180, R186): with no solution only `bt_found` is written. -/
def execBtSynth (clockHz bitrateBps : U32) (s : State) : Answer :=
  match synthesize s.cfg clockHz bitrateBps with
  | none => respond { s with btFound := false } (.timing none)
  | some t =>
    respond { s with
      btFound := true
      btPrescaler := t.prescaler
      btSeg1 := t.seg1
      btSeg2 := t.seg2 } (.timing (some t))

end Sys2Proof.Machine
end

