-- ==== Sys2Proof/Machine/Capture.lean ====
section
/-! DEFINITION. The timer front end and the capture interrupt: `TICK`, `RISE`, `FALL`, `CAPTURE`
(40_pwm_capture.md R130 to R140). -/

namespace Sys2Proof.Machine

open Sys2Proof

/-- `TICK` (R132): one count, modulo `2^CNT_W`. The model's own `wrapped` notes a wrap (R139). -/
def execTick (s : State) : Answer :=
  respond { s with
    cnt := nextCount s.cfg s.cnt
    wrapped := s.wrapped || decide (s.cnt.toNat + 1 ≥ 2 ^ s.cfg.cntW) } .empty

/-- The latches and the counter at an accepted rising edge (R133): "reset-on-rising-edge". -/
def latchRise (s : State) : State :=
  { s with ccrPeriod := s.cnt, cnt := 0, lvl := .high, armed := true, wrapped := false }

/-- The capture a `RISE` performs when a full rise, fall, rise has been seen (R133, R139). -/
def captureAtRise (s : State) : State :=
  if s.armed then
    if s.wrapped then storeWrappedCapture s s.cnt s.ccrPulse else storeCapture s s.cnt s.ccrPulse
  else s

/-- `RISE` (R133): accepted when `lvl` is low or unknown. -/
def execRise (s : State) : Answer :=
  match s.lvl with
  | .high => .refused .riseWhileHigh
  | .low | .unknown => respond (latchRise (captureAtRise s)) .empty

/-- `FALL` (R134): accepted when `lvl` is high or unknown. -/
def execFall (s : State) : Answer :=
  match s.lvl with
  | .low => .refused .fallWhileLow
  | .high | .unknown => respond { s with ccrPulse := s.cnt, lvl := .low } .empty

/-- `CAPTURE` (R136): any pair is accepted; the newest wins. -/
def execCapture (period pulse : U32) (s : State) : Answer :=
  respond (storeCapture s period pulse) .empty

end Sys2Proof.Machine
end

