-- ==== Sys2Proof/Machine/Events.lean ====
section
/-! DEFINITION. The event-flag operations: `EV_SET`, `EV_CLEAR`, `EV_WAIT` (45_event_flags.md R260 to R268). -/

namespace Sys2Proof.Machine

open Sys2Proof

/-- `EV_SET` (R261). -/
def execEvSet (mask : Byte) (s : State) : Answer := respond (setFlags s mask) .empty

/-- `EV_CLEAR` (R262). -/
def execEvClear (mask : Byte) (s : State) : Answer := respond (clearFlags s mask) .empty

/-- `EV_WAIT` (R263, R264): wait-any; `observed` is the whole word before the clear; on success
`clear_on_exit` clears every requested bit; on a timeout nothing is cleared. -/
def execEvWait (mask : Byte) (clearOnExit finite : Bool) (s : State) : Answer :=
  if anyFlagUp s mask then
    respond (if clearOnExit then clearFlags s mask else s) (.flags (readEv s) false)
  else waitOrExpire s finite (.flags (readEv s) true)

end Sys2Proof.Machine
end

