-- ==== Sys2Proof/Machine/ModeDecode.lean ====
section
/-! DEFINITION. The CAN protocol decoder: `MD_FETCH`, `MD_APPLY` (44_can_mode_decode.md R230 to R243). -/

namespace Sys2Proof.Machine

open Sys2Proof

/-- The four modes (30_encoding.md R101). -/
inductive CanMode
  | up
  | down
  | stop
  | normal
  deriving DecidableEq, Repr

/-- The labels of the ways `MD_APPLY` drops a frame (60_exceptions.md R313). Seen at no port. -/
inductive ModeDrop
  | remoteFrame
  | shortFrame
  | unknownMode
  deriving DecidableEq, Repr

/-- The mode-code table, matched on all 8 bits (30_encoding.md R101, R105). -/
def modeOfByte (m : Byte) : Option CanMode :=
  match m.toNat with
  | 0 => some .up
  | 1 => some .down
  | 2 => some .stop
  | 3 => some .normal
  | _ => none

/-- `desired`: the flag of a mode, none for `NORMAL` (R237). -/
def desiredFlags : CanMode → Byte
  | .up => modeUp
  | .down => modeDown
  | .stop => modeStop
  | .normal => 0x00

/-- A mode byte above 0x03 on the primary path: dropped (R236), or the other outcome of 93 U5 (log
entry 16). -/
def unknownByte : UnknownMode → Except ModeDrop CanMode
  | .dropped => .error .unknownMode
  | .asNormal => .ok .normal

/-- The primary path: the byte at `MODE_OFFSET` (R234, R236). -/
def primaryMode (cfg : Config) (f : Frame) : Except ModeDrop CanMode :=
  match modeOfByte (memRead f.data (Fin.ofNat 8 cfg.modeOffset)) with
  | some m => .ok m
  | none => unknownByte cfg.unknownMode

/-- The compatibility path: the last payload byte of a short frame (R235). Read only when `len >= 1`. -/
def lastByteMode (f : Frame) : Except ModeDrop CanMode :=
  match modeOfByte (memRead f.data (Fin.ofNat 8 (f.len.toNat - 1))) with
  | some m => .ok m
  | none => .error .shortFrame

/-- Every way a frame ends (R232 to R236, R241): remote, long enough, short with the fallback, short. -/
def decodeMode (cfg : Config) (f : Frame) : Except ModeDrop CanMode :=
  if f.rtr then .error .remoteFrame
  else if cfg.modeOffset < f.len.toNat then primaryMode cfg f
  else if cfg.shortFrameCompat && decide (1 ≤ f.len.toNat) then lastByteMode f
  else .error .shortFrame

/-- `MD_FETCH` (R231): drain the mailbox into the latch, or wait. -/
def execMdFetch (finite : Bool) (s : State) : Answer :=
  if s.mbFull then
    respond { drainMailbox s with md := s.mb, mdHave := true } (.frame (some s.mb))
  else waitOrExpire s finite (.frame none)

/-- `MD_APPLY` (R232): decode the latched frame once and maintain the mode flags; a dropped frame leaves
`ev` as it is. -/
def execMdApply (s : State) : Answer :=
  if s.mdHave then
    match decodeMode s.cfg s.md with
    | .error _ => respond { s with mdHave := false } .empty
    | .ok m => respond (maintainMode { s with mdHave := false } (desiredFlags m)) .empty
  else respond s .empty

end Sys2Proof.Machine
end

