-- ==== Sys2Proof/Machine/Receive.lean ====
section
/-! DEFINITION. The CAN frame receiver and its mailbox: `RX_FRAME`, `RECV_NB`, `RECV_BLK`
(43_can_receive.md R210 to R219). -/

namespace Sys2Proof.Machine

open Sys2Proof

/-- `RX_FRAME` (R212): overwrite the mailbox, then its flag, then `FRAME_RECEIVED`. Accepted when
`len <= 8` (R111). -/
def execRxFrame (frame : Frame) (s : State) : Answer :=
  if lengthLegal frame.len then
    respond (notifyFrame { s with mb := storeFrame s.mb frame, mbFull := true }) .empty
  else .refused .frameLength

/-- `RECV_NB` (R214): never waits. -/
def execRecvNb (s : State) : Answer :=
  if s.mbFull then respond (drainMailbox s) (.frame (some s.mb)) else respond s (.frame none)

/-- `RECV_BLK` (R215): the success branch of `RECV_NB`, or a wait. -/
def execRecvBlk (finite : Bool) (s : State) : Answer :=
  if s.mbFull then respond (drainMailbox s) (.frame (some s.mb))
  else waitOrExpire s finite (.frame none)

end Sys2Proof.Machine
end

