-- ==== Sys2Proof/Machine/System.lean ====
section
/-! DEFINITION. `IDLE` and `RESET` (70_reset_and_hazards.md R350 to R353). -/

namespace Sys2Proof.Machine

open Sys2Proof

/-- `IDLE` (R353): nothing; the response is empty. -/
def execIdle (s : State) : Answer := respond s .empty

/-- `RESET` (R350): every element to its value of R42 in one step. An element R42 leaves unspecified takes
a free value (93 U2; log entry 3); the two latches are `CNT_W` bits wide (R22). The configuration and what
the agents have still to request are not elements of the block and stay. -/
def resetBlock (s : State) : State :=
  { s with
    cnt := 0
    ccrPeriod := truncTicks s.cfg (Config.freeU32 s.draws)
    ccrPulse := truncTicks s.cfg (Config.freeU32 (s.draws + 1))
    lvl := .unknown
    armed := false
    periodTicks := Config.freeU32 (s.draws + 2)
    pulseTicks := Config.freeU32 (s.draws + 3)
    hasNew := false
    zeroInit := false
    zeroDegrees := Config.freeAngle s.draws
    btFound := false
    btPrescaler := Config.freeU32 (s.draws + 4)
    btSeg1 := Config.freeByte s.draws
    btSeg2 := Config.freeByte (s.draws + 1)
    mb := Config.freeFrame s.draws
    mbFull := false
    md := Config.freeFrame (s.draws + 1)
    mdHave := false
    ev := 0x00
    steer := .center
    cntLeft := 0
    cntRight := 0
    cntCenter := 0
    started := true
    wrapped := false
    draws := s.draws + 5 }

/-- `RESET` (R350); the response is empty. -/
def execReset (s : State) : Answer := respond (resetBlock s) .empty

end Sys2Proof.Machine
end

