-- ==== Sys2Proof/Machine/Dispatch.lean ====
section
/-! DEFINITION. The meaning of every operation of the table (30_encoding.md R104), one arm each. -/

namespace Sys2Proof.Machine

open Sys2Proof

/-- One operation, as one indivisible step (20_memory.md R63). -/
def exec (i : Instr) (s : State) : Host.Outcome State Fault Refusal :=
  match i with
  | .idle => Sys2Proof.Machine.execIdle s
  | .reset => Sys2Proof.Machine.execReset s
  | .tick => Sys2Proof.Machine.execTick s
  | .rise => Sys2Proof.Machine.execRise s
  | .fall => Sys2Proof.Machine.execFall s
  | .capture period pulse => Sys2Proof.Machine.execCapture period pulse s
  | .getAngle => Sys2Proof.Machine.execGetAngle s
  | .btSynth clockHz bitrateBps => Sys2Proof.Machine.execBtSynth clockHz bitrateBps s
  | .rxFrame frame => Sys2Proof.Machine.execRxFrame frame s
  | .recvNb => Sys2Proof.Machine.execRecvNb s
  | .recvBlk finite => Sys2Proof.Machine.execRecvBlk finite s
  | .mdFetch finite => Sys2Proof.Machine.execMdFetch finite s
  | .mdApply => Sys2Proof.Machine.execMdApply s
  | .evSet mask => Sys2Proof.Machine.execEvSet mask s
  | .evClear mask => Sys2Proof.Machine.execEvClear mask s
  | .evWait mask clearOnExit finite => Sys2Proof.Machine.execEvWait mask clearOnExit finite s
  | .fsmSample valid angle => Sys2Proof.Machine.execFsmSample valid angle s
  | .canSend frame txFree => Sys2Proof.Machine.execCanSend frame txFree s

end Sys2Proof.Machine
end

