-- ==== Sys2Proof/Machine/Requests.lean ====
section
/-! DEFINITION. Requests: which one comes next (20_memory.md R69; 70_reset_and_hazards.md R371), which
operation may be issued from which context and by which agent (60_exceptions.md R326, R330), and what an answered
request leaves. -/

namespace Sys2Proof.Machine

open Sys2Proof

/-- The table of R326. Its cells marked "env" are hardware outside any software context. `RESET` comes from
there and not from software, `IDLE` from anywhere (70_reset_and_hazards.md R350, R353). `TICK`, `RISE` and
`FALL` come from there only, so that no task writes the capture cell through a `RISE` (R327), and software
operations do not: THE MODEL'S CHOICE (DESIGN CHOICE, log entry 9). -/
def allowed (ctx : Context) : Instr → Bool
  | .idle => true
  | .reset | .tick | .rise | .fall => match ctx with
    | .hardware => true
    | .interrupt | .task => false
  | .capture _ _ | .rxFrame _ => match ctx with
    | .interrupt => true
    | .hardware | .task => false
  | .evSet _ => match ctx with
    | .interrupt | .task => true
    | .hardware => false
  | .getAngle | .btSynth _ _ | .recvNb | .recvBlk _ | .mdFetch _ | .mdApply | .evClear _
  | .evWait _ _ _ | .fsmSample _ _ | .canSend _ _ => match ctx with
    | .task => true
    | .hardware | .interrupt => false

/-- The table of R330: which agent issues which operation, from which context. `IDLE`, which has no row there, may be
any agent's, for time passing (70_reset_and_hazards.md R353; log entry 26). The block cannot see who issues an
operation and refuses nothing on this ground: the table is a contract (`tableFollowed`). -/
def issues (role : Role) (ctx : Context) : Instr → Bool
  | .idle => true
  | .tick | .rise | .fall => role = .sensor ∧ ctx = .hardware
  | .capture _ _ => role = .captureInterrupt ∧ ctx = .interrupt
  | .rxFrame _ => role = .receiveInterrupt ∧ ctx = .interrupt
  | .reset => role = .initialisation ∧ ctx = .hardware
  | .btSynth _ _ => role = .initialisation ∧ ctx = .task
  | .getAngle | .fsmSample _ _ => role = .angleTask ∧ ctx = .task
  | .mdFetch _ | .mdApply => role = .decoderTask ∧ ctx = .task
  | .evWait _ _ _ | .evClear _ => role = .consumer ∧ ctx = .task
  | .evSet _ => role = .producer ∧ ctx ≠ .hardware
  | .recvNb | .recvBlk _ => role = .mailboxReader ∧ ctx = .task
  | .canSend _ _ => role = .sender ∧ ctx = .task

/-- Whether the operation is the power-up `RESET` (70_reset_and_hazards.md R350). -/
def isReset : Instr → Bool
  | .reset => true
  | .idle | .tick | .rise | .fall | .capture _ _ | .getAngle | .btSynth _ _ | .rxFrame _ | .recvNb
  | .recvBlk _ | .mdFetch _ | .mdApply | .evSet _ | .evClear _ | .evWait _ _ _ | .fsmSample _ _
  | .canSend _ _ => false

/-- The refusal of a word that names no operation (30_encoding.md R109 to R111). -/
def refusalOf : DecodeError → Refusal
  | .reservedSelector _ => .reservedSelector
  | .frameLength _ => .frameLength

/-- A request as the interface meets it: the operation to run, or why it is refused (30_encoding.md R110;
93 U4). R110 gives the reasons no order. THE MODEL'S CHOICE (DESIGN CHOICE, log entry 25): the first of these is
reported: the word, the context, the time before the first `RESET`; a level of the pin that a `RISE` or `FALL`
does not fit comes last, in the operation's meaning. -/
def acceptRequest (s : State) (r : Request) : Except Refusal Instr :=
  match decode s.cfg.num r.word r.side with
  | .error e => .error (refusalOf e)
  | .ok i =>
    if allowed r.ctx i = false then .error .contextForbidden
    else if s.started = false && !isReset i then .error .beforeReset
    else .ok i

/-- A context from which the operation a selector names may be issued (R326): `RESET`, the pin's and the
clock's from hardware, the handlers' from interrupt context, every other from task context. -/
def contextFor (op : BitVec 5) : Context :=
  if op = 0x05 ∨ op = 0x08 then .interrupt
  else if op = 0x01 ∨ op = 0x02 ∨ op = 0x03 ∨ op = 0x04 then .hardware
  else .task

/-- The agent whose row of R330 has the operation a selector names; `IDLE` and a reserved word are a producer's. -/
def roleFor (op : BitVec 5) : Role :=
  match op.toNat with
  | 1 | 7 => .initialisation
  | 2 | 3 | 4 => .sensor
  | 5 => .captureInterrupt
  | 6 | 16 => .angleTask
  | 8 => .receiveInterrupt
  | 9 | 10 => .mailboxReader
  | 11 | 12 => .decoderTask
  | 14 | 15 => .consumer
  | 17 => .sender
  | _ => .producer

/-- The request that names an operation: its word, and its angle on the side port (30_encoding.md R90, R96). -/
def requestOf (ctx : Context) (i : Instr) : Request := { ctx := ctx, word := encode i, side := sidePort i }

/-- What `MD_STEP` issues after its `MD_FETCH finite=1` (R115): `MD_APPLY` if a frame was returned. -/
def mdStepRest : Response → List Instr
  | .frame (some _) => [.mdApply]
  | .frame none | .empty | .waiting | .angle _ | .timing _ | .flags _ _ | .sent _ => []

/-- An angle operand nothing is known of: any rational, or any pattern (30_encoding.md R98; log entry 23). -/
def freeAnglePort (dom : NumDomain) (draw : Nat) : AnglePort :=
  match dom with
  | .rational => .rational (Config.freeAngle draw)
  | .binary32 => .binary32 (Config.freeU32 draw)

/-- What `FSM_POLL` issues after its `GET_ANGLE` (R115): `FSM_SAMPLE` with that response as operand. After
`valid = 0` the spec leaves `relative_degrees` unspecified (30_encoding.md R98; 41_angle_decode.md R162), and
which angle the operand then carries is the MODEL'S CHOICE: a free value (DESIGN CHOICE, log entry 23).
`FSM_SAMPLE` ignores it (R96). -/
def fsmPollRest (dom : NumDomain) (draw : Nat) : Response → List Instr
  | .angle (some q) => [.fsmSample true (anglePortOf dom q)]
  | .angle none => [.fsmSample false (freeAnglePort dom draw)]
  | .empty | .waiting | .timing _ | .frame _ | .flags _ _ | .sent _ => []

/-- What an agent issues next because of the response it has just got (R330): the angle task its `FSM_SAMPLE` with
the result of a `GET_ANGLE`, the decoder task its `MD_APPLY` if an `MD_FETCH` got a frame. Operations of other
agents may fall between (20_memory.md R69). `t` is the state that holds the response. -/
def followUp (role : Role) (i : Instr) (t : State) : List Request :=
  match role, i with
  | .angleTask, .getAngle => (fsmPollRest t.cfg.num t.draws t.resp).map (requestOf .task)
  | .decoderTask, .mdFetch _ => (mdStepRest t.resp).map (requestOf .task)
  | _, _ => []

/-- The request the scheduler's next choice selects; none when there is no choice left, or the chosen agent
has nothing to request. -/
def nextRequest (s : State) : Option (Turn × Request) :=
  match s.sched with
  | [] => none
  | turn :: _ =>
    match s.agents[turn.agent]? with
    | none => none
    | some a =>
      match a.requests with
      | [] => none
      | r :: _ => some (turn, r)

/-- Agent `k` has its first request answered, the operation `i`, with the response that `t` holds. -/
def answerRequest (agents : List Agent) (k : Nat) (i : Instr) (t : State) : List Agent :=
  agents.modify k fun a => { a with requests := followUp a.role i t ++ a.requests.tail }

/-- A turn in which no agent requests anything: only the schedule moves on (log entry 7). -/
def skipTurn (s : State) : State := { s with sched := s.sched.tail }

/-- The state in which the operation of a turn runs: the scheduler's choice on a timeout (R371). -/
def beginTurn (turn : Turn) (s : State) : State := { s with expire := turn.expire }

/-- The state after the block has answered agent `k`'s operation `i`: the choice is spent, and the request too
unless its operation is still waiting, which then occupies no point of the order (20_memory.md R77;
43_can_receive.md R216); an answered agent goes on as the response has it (R330). -/
def afterTurn (k : Nat) (i : Instr) (t : State) : State :=
  { t with
    sched := t.sched.tail
    agents := if completed t.resp then answerRequest t.agents k i t else t.agents }

/-- A request from a context that suits the word, which has the low `nbits` bits of `w`; 0 on the side port. -/
def wordRequest (nbits w : Nat) : Request :=
  let word : Word := BitVec.ofNat 108 (w % 2 ^ nbits)
  { ctx := contextFor (selector word), word := word, side := 0 }

/-- One more agent, of the role that issues such a word, with one request, chosen next (log entry 7); a finite wait does not time out in that
turn. -/
def placeRequest (s : State) (r : Request) : State :=
  { s with
    agents := s.agents ++ [{ role := roleFor (selector r.word), requests := [r] }]
    sched := { agent := s.agents.length, expire := false } :: s.sched }

end Sys2Proof.Machine
end

