-- ==== Sys2Proof/Machine/Step.lean ====
section
/-! DEFINITION. One step of a run (20_memory.md R69, R77; 70_reset_and_hazards.md R371, R372): the
scheduler's next choice lets one agent take its next operation. -/

namespace Sys2Proof.Machine

open Sys2Proof

/-- An accepted operation, run in its turn (20_memory.md R63, R77). -/
def runTurn (turn : Turn) (i : Instr) (s : State) : Host.Outcome State Fault Refusal :=
  match exec i (beginTurn turn s) with
  | .next t => .next (afterTurn turn.agent i t)
  | .fault e => .fault e
  | .refused e => .refused e

/-- The step: a turn with nothing to request changes only the schedule; a request the interface does not
accept is refused (R110); any other is run as one operation. -/
def step (s : State) : Host.Outcome State Fault Refusal :=
  match nextRequest s with
  | none => .next (skipTurn s)
  | some (turn, r) =>
    match acceptRequest s r with
    | .error e => .refused e
    | .ok i => runTurn turn i s

/-- The environment issuing the word `w` of `nbits` bits as the very next request (log entry 7). -/
def State.withFetchWord (s : State) (nbits w : Nat) : State := placeRequest s (wordRequest nbits w)

end Sys2Proof.Machine
end

