-- ==== Sys2Proof/Machine/Pseudo.lean ====
section
/-! DEFINITION. Sequences of operations that one agent issues with nothing of another agent between them, and
the pseudo-operations of 30_encoding.md R115. In a run other agents' operations may fall between the parts
(20_memory.md R69); the step of Machine/Step.lean allows that. -/

namespace Sys2Proof.Machine

open Sys2Proof

/-- The operations of a list, one after another, stopping at the first fault or refusal. -/
def runOps : List Instr → State → Answer
  | [], s => .next s
  | i :: rest, s =>
    match exec i s with
    | .next t => runOps rest t
    | .fault e => .fault e
    | .refused e => .refused e

/-- `INIT clock_hz, bitrate_bps` (R115; 70_reset_and_hazards.md R357). -/
def initOps (clockHz bitrateBps : U32) : List Instr := [.reset, .btSynth clockHz bitrateBps]

/-- `INIT` as the initialisation agent requests it: the `RESET` from hardware, at power-up, then the `BT_SYNTH`
from a task (60_exceptions.md R330; 70_reset_and_hazards.md R350). -/
def initRequests (clockHz bitrateBps : U32) : List Request :=
  [requestOf .hardware .reset, requestOf .task (.btSynth clockHz bitrateBps)]

/-- The timing a caller uses after `BT_SYNTH`: the result, or `FALLBACK_TIMING` when there is none, which no
source gives (42_can_bit_timing.md R186; log entry 21). -/
def timingInUse (cfg : Config) : Response → Option BitTiming
  | .timing (some t) => some t
  | .timing none => cfg.fallbackTiming
  | .empty | .waiting | .angle _ | .frame _ | .flags _ _ | .sent _ => none

/-- `TICKS n` (R115). -/
def ticksOps (n : Nat) : List Instr := List.replicate n .tick

/-- `MD_STEP` (R115): one pass of the decoder task's loop. -/
def runMdStep (s : State) : Answer :=
  match exec (.mdFetch true) s with
  | .next t => runOps (mdStepRest t.resp) t
  | .fault e => .fault e
  | .refused e => .refused e

/-- `FSM_POLL` (R115): one pass of the steering task's loop. -/
def runFsmPoll (s : State) : Answer :=
  match exec .getAngle s with
  | .next t => runOps (fsmPollRest t.cfg.num t.draws t.resp) t
  | .fault e => .fault e
  | .refused e => .refused e

end Sys2Proof.Machine
end

