-- ==== Sys2Proof/Safety.lean ====
section
/-! DEFINITION. What every state of a run satisfies, which groups of state an operation may write
(10_state.md R37), and the contracts the agents keep (60_exceptions.md R330; 70_reset_and_hazards.md R359 to R363). -/

namespace Sys2Proof.Machine

open Sys2Proof

/-- The front end: `cnt` and the latches are `CNT_W` bits (10_state.md R21, R22); an armed front end has
seen an edge (R23, R24); unless the counter wrapped, the pulse width latched since the last rising edge
is not above the counter (40_pwm_capture.md R135). -/
structure TimerInv (s : State) : Prop where
  cnt : s.cnt.toNat < 2 ^ s.cfg.cntW
  ccrPeriod : s.ccrPeriod.toNat < 2 ^ s.cfg.cntW
  ccrPulse : s.ccrPulse.toNat < 2 ^ s.cfg.cntW
  armed : s.armed = true → s.lvl ≠ .unknown
  pulse : s.armed = true → s.lvl = .low → s.wrapped = false → s.ccrPulse.toNat ≤ s.cnt.toNat

/-- The zero reference lies in `[0, 360)`, and above 0 over the rationals (10_state.md R26;
41_angle_decode.md R165). -/
structure ZeroInv (s : State) : Prop where
  low : s.zeroInit = true → 0 ≤ s.zeroDegrees
  high : s.zeroInit = true → s.zeroDegrees < 360
  positive : s.zeroInit = true → s.cfg.num = .rational → 0 < s.zeroDegrees

/-- The bit-timing registers while `bt_found` is 1 (42_can_bit_timing.md R190 (b) to (e)). -/
structure TimingInv (s : State) : Prop where
  prescaler : s.btFound = true → s.cfg.prescMin ≤ s.btPrescaler.toNat ∧ s.btPrescaler.toNat ≤ s.cfg.prescMax
  seg1 : s.btFound = true → s.cfg.seg1Min ≤ s.btSeg1.toNat ∧ s.btSeg1.toNat ≤ s.cfg.seg1Max
  seg2 : s.btFound = true → s.cfg.seg2Min ≤ s.btSeg2.toNat ∧ s.btSeg2.toNat ≤ s.cfg.seg2Max
  quanta : s.btFound = true →
    s.cfg.tqMin ≤ 1 + s.btSeg1.toNat + s.btSeg2.toNat ∧ 1 + s.btSeg1.toNat + s.btSeg2.toNat ≤ s.cfg.tqMax

/-- An unread frame, and a latched one, has a legal length (43_can_receive.md R213 (d)). -/
structure FrameInv (s : State) : Prop where
  mailbox : s.mbFull = true → lengthLegal s.mb.len = true
  latch : s.mdHave = true → lengthLegal s.md.len = true

/-- The debounce counters (46_adjacent_units.md R282). -/
structure SteerInv (s : State) : Prop where
  left : s.cntLeft < s.cfg.debounceN
  right : s.cntRight < s.cfg.debounceN
  center : s.cntCenter < s.cfg.debounceN
  atCenter : s.steer = .center → s.cntCenter = 0 ∧ (s.cntLeft = 0 ∨ s.cntRight = 0)
  turned : s.steer ≠ .center → s.cntLeft = 0 ∧ s.cntRight = 0

/-- What every state of a run satisfies: the parameters are in range and, beside the groups above, bit 7
of `ev` is 0 (10_state.md R34; 45_event_flags.md R266). -/
structure Inv (s : State) : Prop where
  cfg : s.cfg.wf = true
  timer : TimerInv s
  zero : ZeroInv s
  timing : TimingInv s
  frames : FrameInv s
  steer : SteerInv s
  ev : s.ev &&& 0x80 = 0

/-- The columns of the access table (10_state.md R37), and the configuration, which has none because no
operation writes it (R36). -/
inductive Group
  | timer
  | captureCell
  | zeroReference
  | bitTiming
  | mailbox
  | latch
  | ev
  | steering
  | configuration
  deriving DecidableEq, Repr

/-- `t` has the elements of a group as `s` has them. `ev` is compared as it reads (R34). -/
def sameGroup (g : Group) (s t : State) : Prop :=
  match g with
  | .timer => t.cnt = s.cnt ∧ t.ccrPeriod = s.ccrPeriod ∧ t.ccrPulse = s.ccrPulse ∧ t.lvl = s.lvl
      ∧ t.armed = s.armed
  | .captureCell => t.periodTicks = s.periodTicks ∧ t.pulseTicks = s.pulseTicks ∧ t.hasNew = s.hasNew
  | .zeroReference => t.zeroInit = s.zeroInit ∧ t.zeroDegrees = s.zeroDegrees
  | .bitTiming => t.btFound = s.btFound ∧ t.btPrescaler = s.btPrescaler ∧ t.btSeg1 = s.btSeg1
      ∧ t.btSeg2 = s.btSeg2
  | .mailbox => t.mb = s.mb ∧ t.mbFull = s.mbFull
  | .latch => t.md = s.md ∧ t.mdHave = s.mdHave
  | .ev => readEv t = readEv s
  | .steering => t.steer = s.steer ∧ t.cntLeft = s.cntLeft ∧ t.cntRight = s.cntRight
      ∧ t.cntCenter = s.cntCenter
  | .configuration => t.cfg = s.cfg

/-- Every element of the block, as `s` has it (R20). -/
def sameBlock (s t : State) : Prop := ∀ g, sameGroup g s t

/-- The access table: which operation may write which group (10_state.md R37). -/
def mayWrite : Instr → Group → Bool
  | .idle, _ => false
  | .reset, g => g ≠ .configuration
  | .tick, g => g = .timer
  | .rise, g => g = .timer ∨ g = .captureCell
  | .fall, g => g = .timer
  | .capture _ _, g => g = .captureCell
  | .getAngle, g => g = .captureCell ∨ g = .zeroReference
  | .btSynth _ _, g => g = .bitTiming
  | .rxFrame _, g => g = .mailbox ∨ g = .ev
  | .recvNb, g => g = .mailbox ∨ g = .ev
  | .recvBlk _, g => g = .mailbox ∨ g = .ev
  | .mdFetch _, g => g = .mailbox ∨ g = .latch ∨ g = .ev
  | .mdApply, g => g = .latch ∨ g = .ev
  | .evSet _, g => g = .ev
  | .evClear _, g => g = .ev
  | .evWait _ _ _, g => g = .ev
  | .fsmSample _ _, g => g = .ev ∨ g = .steering
  | .canSend _ _, _ => false

/-- The bits of `ev` an operation may change (10_state.md R34, R37; 45_event_flags.md R268). -/
def evReach : Instr → Byte
  | .reset => evValid
  | .rxFrame _ | .recvNb | .recvBlk _ | .mdFetch _ => frameReceived
  | .mdApply => modeMask
  | .evSet m | .evClear m | .evWait m _ _ => m &&& evValid
  | .fsmSample _ _ => turnMask
  | .idle | .tick | .rise | .fall | .capture _ _ | .getAngle | .btSynth _ _ | .canSend _ _ => 0

/-- What an operation leaves alone beside the block: the agents and their requests, the schedule, the
timeout choice and whether the block has been reset. -/
def sameEnvironment (s t : State) : Prop :=
  t.agents = s.agents ∧ t.sched = s.sched ∧ t.expire = s.expire ∧ t.started = s.started

/-- Some request of the agent names an operation that satisfies `p`. -/
def requestsSome (dom : NumDomain) (p : Instr → Bool) (a : Agent) : Bool :=
  a.requests.any fun r =>
    match decode dom r.word r.side with
    | .ok i => p i
    | .error _ => false

/-- At most one agent still requests an operation that satisfies `p`. -/
def oneIssuer (p : Instr → Bool) (s : State) : Bool :=
  decide ((s.agents.filter (requestsSome s.cfg.num p)).length ≤ 1)

/-- No agent still requests an operation that satisfies `p`. -/
def noIssuer (p : Instr → Bool) (s : State) : Bool :=
  s.agents.all fun a => !requestsSome s.cfg.num p a

/-- What writes the capture cell's pair: `CAPTURE`, and `RISE`, which performs one (10_state.md R25). -/
def writesCapture (i : Instr) : Bool := selectorOf i = 0x05 ∨ selectorOf i = 0x03
/-- `GET_ANGLE`. -/
def isGetAngle (i : Instr) : Bool := selectorOf i = 0x06
/-- `RX_FRAME`. -/
def isRxFrame (i : Instr) : Bool := selectorOf i = 0x08
/-- `RECV_NB` or `RECV_BLK`. -/
def isRecv (i : Instr) : Bool := selectorOf i = 0x09 ∨ selectorOf i = 0x0A
/-- `MD_FETCH`. -/
def isMdFetch (i : Instr) : Bool := selectorOf i = 0x0B
/-- `FSM_SAMPLE`. -/
def isFsmSample (i : Instr) : Bool := selectorOf i = 0x10

/-- The single accesses of R327 and R359 to R361: one writer of each cell, one reader of the capture cell, one reader
of the mailbox and of one kind only, one steering task. -/
def singleAccess (s : State) : Bool :=
  oneIssuer writesCapture s && oneIssuer isRxFrame s && oneIssuer isGetAngle s && oneIssuer isFsmSample s
    && ((oneIssuer isMdFetch s && noIssuer isRecv s) || (oneIssuer isRecv s && noIssuer isMdFetch s))

/-- The operations an agent has still to issue, less the idle ones. -/
def remaining (dom : NumDomain) (a : Agent) : List Instr :=
  a.requests.filterMap fun r =>
    match decode dom r.word r.side with
    | .ok .idle => none
    | .ok i => some i
    | .error _ => none

/-- The order R330 gives an agent's operations. The angle task issues `GET_ANGLE` and only then `FSM_SAMPLE`, the
decoder task `MD_FETCH` and only then `MD_APPLY`: the second half of a pass stands first in the list, where
`followUp` has put it, or not at all. The initialisation is `RESET`, then `BT_SYNTH`, once
(70_reset_and_hazards.md R357). -/
def inOrder : Role → List Instr → Bool
  | .angleTask, .fsmSample _ _ :: rest => rest.all isGetAngle
  | .angleTask, l => l.all isGetAngle
  | .decoderTask, .mdApply :: rest => rest.all isMdFetch
  | .decoderTask, l => l.all isMdFetch
  | .initialisation, l => match l with
    | [] | [.reset] | [.btSynth _ _] | [.reset, .btSynth _ _] => true
    | _ => false
  | _, _ => true

/-- An agent follows its row of the table of R330: every request names an operation of the row, from a context of the
row, and the order is the row's. -/
def followsRow (dom : NumDomain) (a : Agent) : Bool :=
  (a.requests.all fun r =>
    match decode dom r.word r.side with
    | .ok i => issues a.role r.ctx i
    | .error _ => false)
  && inOrder a.role (remaining dom a)

/-- At most one agent has a role among these. -/
def atMostOne (roles : List Role) (s : State) : Bool :=
  decide ((s.agents.filter fun a => decide (a.role ∈ roles)).length ≤ 1)

/-- The environment is the one of the table of R330: every agent follows its row; there is one pin or, at capture
level, one capture interrupt; one receive interrupt, initialisation, angle task and sender; one decoder task or,
instead of it, one other mailbox reader; and any number of consumers and other producers (log entry 26). -/
def tableFollowed (s : State) : Bool :=
  s.agents.all (followsRow s.cfg.num)
    && atMostOne [.sensor, .captureInterrupt] s && atMostOne [.receiveInterrupt] s
    && atMostOne [.initialisation] s && atMostOne [.angleTask] s
    && atMostOne [.decoderTask, .mailboxReader] s && atMostOne [.sender] s

/-- The contracts of the environment: the agents of R330, which access the cells as R327 and R359 to R361 say. The
block does not check them. -/
def disciplined (s : State) : Bool := tableFollowed s && singleAccess s

end Sys2Proof.Machine
end

