-- ==== Sys2Proof/Certificates/Slice0/Obligations.lean ====
section
/-! DEFINITION. The statements for the provers. "R<n>" is a rule of spec/; "D<n>" marks one that the spec
calls its own decision (92_eei_decisions.md); a log entry is a row of notes/assumptions. -/

open Sys2Proof Sys2Proof.Machine

/-! ## Operation words -/

/-- Decoding the word of a well-formed operation gives the operation back, every operand at every value the
encoding admits, in both number domains (30_encoding.md sections 1 and 4; D1). -/
def Obligations.DecodeOfEncodeIsTheOperation : Prop :=
  ∀ (dom : NumDomain) (i : Instr), WellFormed dom i = true → decode dom (encode i) (sidePort i) = .ok i

/-- A decoded operation is well formed, and its word has exactly the significant bits of the word decoded:
those below the format's width, less the ignored bits 14:13 of `EV_SET` and `EV_CLEAR`
(30_encoding.md sections 1, 4 and 5; D1; the ignored bits are log entry 13). -/
def Obligations.EncodeOfDecodeKeepsEverySignificantBit : Prop :=
  ∀ (dom : NumDomain) (w : Word) (side : Rat) (i : Instr), decode dom w side = .ok i →
    WellFormed dom i = true
    ∧ (∀ b : Nat, b < 108 → (encode i).getLsbD b
        = (w.getLsbD b
          && decide (b < if selector w = 0x0D ∨ selector w = 0x0E then 13
              else formatWidth dom (selector w))))
    ∧ (dom = .rational → selector w = 0x10 → sidePort i = side)

/-- The decoder rejects the selectors 0x12 to 0x1F and `RX_FRAME` with `len` above 8, each by its own name,
and no other word (30_encoding.md section 5; D1, D12). -/
def Obligations.DecoderRejectsExactlyTheReservedWords : Prop :=
  ∀ (dom : NumDomain) (w : Word) (side : Rat),
    (18 ≤ (w.extractLsb' 0 5).toNat →
      decode dom w side = .error (.reservedSelector (w.extractLsb' 0 5)))
    ∧ ((w.extractLsb' 0 5).toNat = 8 → 8 < (w.extractLsb' 39 4).toNat →
      decode dom w side = .error (.frameLength (w.extractLsb' 39 4)))
    ∧ ((w.extractLsb' 0 5).toNat < 18 →
      ((w.extractLsb' 0 5).toNat = 8 → (w.extractLsb' 39 4).toNat ≤ 8) →
      ∃ i, decode dom w side = .ok i)

/-- Two words that agree below the width of the first one's format decode alike: bits above a format's width
are ignored (30_encoding.md section 1; D1; log entry 13). -/
def Obligations.BitsAboveTheFormatAreIgnored : Prop :=
  ∀ (dom : NumDomain) (w v : Word) (side : Rat),
    (∀ b : Nat, b < formatWidth dom (selector w) → w.getLsbD b = v.getLsbD b) →
    decode dom v side = decode dom w side

/-- Words written out in 95_test_vectors.md, sections 2.1 to 2.7, decode to the operations written there. -/
def Obligations.SampleWordsDecode : Prop :=
  decode .rational 0x1f4000007d05 0 = .ok (.capture 1000 250)
  ∧ decode .rational 0xf4240044aa2007 0 = .ok (.btSynth 36000000 500000)
  ∧ decode .rational 0x83923579bde08 0
      = .ok (.rxFrame
          { id := 0x1ABCDEF0, ext := true, rtr := false, len := 2, data := #v[7, 1, 0, 0, 0, 0, 0, 0] })
  ∧ decode .rational 0x2a 0 = .ok (.recvBlk true)
  ∧ decode .rational 0x270f 0 = .ok (.evWait 0x38 true false)
  ∧ decode .binary32 0x10afd00030 0 = .ok (.fsmSample true (.binary32 0x42BF4000))
  ∧ decode .rational 0x0c 0 = .ok .mdApply

/-! ## The step -/

/-- A STEP RUNS THE DECODED OPERATION: when the scheduler's next choice selects an agent whose next request
decodes to an operation that its context allows, after the first `RESET`, the step is that operation, run with the
choice on a timeout; then the choice is spent, and the request too unless the operation is waiting. What the agent
then issues first follows the response: the angle task's `GET_ANGLE` is followed by `FSM_SAMPLE` with that result, the
decoder task's `MD_FETCH` by `MD_APPLY` if it got a frame, and nothing else by anything (20_memory.md sections 6 and 11;
60_exceptions.md section 6, R330; 70_reset_and_hazards.md section 5; log entries 7, 8 and 26; which angle the operand
carries after `valid = 0` is log entry 23, and is not stated). -/
def Obligations.StepRunsTheDecodedOperation : Prop :=
  ∀ (s : State) (turn : Turn) (rest : List Turn) (a : Agent) (r : Request) (more : List Request) (i : Instr),
    s.sched = turn :: rest → s.agents[turn.agent]? = some a → a.requests = r :: more →
    decode s.cfg.num r.word r.side = .ok i → allowed r.ctx i = true → (s.started = true ∨ i = .reset) →
    (∀ t, exec i { s with expire := turn.expire } = .next t →
      ∃ u, step s = .next u
        ∧ u = { t with sched := rest, agents := u.agents }
        ∧ (t.resp = .waiting → u.agents = s.agents)
        ∧ (t.resp ≠ .waiting → ∃ next : List Request,
            u.agents = s.agents.set turn.agent { role := a.role, requests := next ++ more }
            ∧ (a.role = .angleTask → i = .getAngle →
              (∀ q, t.resp = .angle (some q) → ∃ f, next = [f] ∧ f.ctx = .task
                ∧ decode s.cfg.num f.word f.side = .ok (.fsmSample true (anglePortOf s.cfg.num q)))
              ∧ (t.resp = .angle none → ∃ f x, next = [f] ∧ f.ctx = .task
                ∧ decode s.cfg.num f.word f.side = .ok (.fsmSample false x)))
            ∧ (a.role = .decoderTask → ∀ finite, i = .mdFetch finite →
              (∀ g, t.resp = .frame (some g) → ∃ f, next = [f] ∧ f.ctx = .task
                ∧ decode s.cfg.num f.word f.side = .ok .mdApply)
              ∧ (t.resp = .frame none → next = []))
            ∧ (¬ (a.role = .angleTask ∧ i = .getAngle) →
              ¬ (a.role = .decoderTask ∧ ∃ finite, i = .mdFetch finite) → next = [])))
    ∧ (∀ e, exec i { s with expire := turn.expire } = .fault e → step s = .fault e)
    ∧ (∀ e, exec i { s with expire := turn.expire } = .refused e → step s = .refused e)

/-- What the step refuses, each by name: a reserved selector; an `RX_FRAME` with `len` above 8; a context the table of
60_exceptions.md section 5 does not allow, whose rows stand here by selector; anything but `RESET` before the first
`RESET` (30_encoding.md section 5; D1, D12, D27; log entry 10). From an interrupt: `RESET`, `GET_ANGLE`, `BT_SYNTH`,
`RECV_NB`, `RECV_BLK`, `MD_FETCH`, `MD_APPLY`, `EV_CLEAR`, `EV_WAIT`, `FSM_SAMPLE` and `CAN_SEND` are refused. From a
task: `RESET`, `CAPTURE` and `RX_FRAME`; `RESET` is the environment's, not software's (70_reset_and_hazards.md section
1, R350). THE MODEL'S CHOICE, log entry 9: that "env" is a context of its own, from which no software operation comes,
and that `TICK`, `RISE` and `FALL` come from it alone. THE MODEL'S CHOICE, log entry 25: of several reasons to refuse
one request the word's is reported before the context's, and the context's before the missing `RESET`. -/
def Obligations.StepRefusesWhatTheInterfaceDoesNotAccept : Prop :=
  ∀ (s : State) (turn : Turn) (r : Request), nextRequest s = some (turn, r) →
    (18 ≤ (r.word.extractLsb' 0 5).toNat → step s = .refused .reservedSelector)
    ∧ ((r.word.extractLsb' 0 5).toNat = 8 → 8 < (r.word.extractLsb' 39 4).toNat →
        step s = .refused .frameLength)
    ∧ (∀ (i : Instr) (n : Nat), decode s.cfg.num r.word r.side = .ok i → n = (r.word.extractLsb' 0 5).toNat →
        (r.ctx = .interrupt → n ∈ [1, 2, 3, 4, 6, 7, 9, 10, 11, 12, 14, 15, 16, 17] →
          step s = .refused .contextForbidden)
        ∧ (r.ctx = .task → n ∈ [1, 2, 3, 4, 5, 8] → step s = .refused .contextForbidden)
        ∧ (r.ctx = .hardware → n ∈ [5, 6, 7, 8, 9, 10, 11, 12, 13, 14, 15, 16, 17] →
          step s = .refused .contextForbidden)
        ∧ ((r.ctx = .interrupt ∧ n ∈ [0, 5, 8, 13])
            ∨ (r.ctx = .task ∧ n ∈ [0, 6, 7, 9, 10, 11, 12, 13, 14, 15, 16, 17])
            ∨ (r.ctx = .hardware ∧ n ∈ [0, 1, 2, 3, 4]) →
          step s ≠ .refused .contextForbidden
          ∧ (s.started = false → n ≠ 1 → step s = .refused .beforeReset)
          ∧ (s.started = true ∨ n = 1 → step s ≠ .refused .beforeReset)))

/-- What the contexts protect: a step that changes the payload of the capture cell or of the mailbox is a handler's
`CAPTURE` or `RX_FRAME`, or hardware's `RISE`, which performs a `CAPTURE`, or hardware's `RESET`; and no operation
of an interrupt waits, so a handler always completes (60_exceptions.md section 5, R327; 70_reset_and_hazards.md section
1, R350; D27; log entry 9). -/
def Obligations.ContextsProtectTheCells : Prop :=
  ∀ (s u : State) (turn : Turn) (r : Request) (i : Instr), nextRequest s = some (turn, r) →
    decode s.cfg.num r.word r.side = .ok i → step s = .next u →
    (u.periodTicks ≠ s.periodTicks ∨ u.pulseTicks ≠ s.pulseTicks →
      (r.ctx = .interrupt ∧ ∃ period pulse, i = .capture period pulse)
        ∨ (r.ctx = .hardware ∧ (i = .rise ∨ i = .reset)))
    ∧ (u.mb ≠ s.mb → (r.ctx = .interrupt ∧ ∃ f, i = .rxFrame f) ∨ (r.ctx = .hardware ∧ i = .reset))
    ∧ (r.ctx = .interrupt → u.resp ≠ .waiting)

/-- An operation that waits takes no step: every element of the block, the configuration and the agents with
their requests are as before, and only the scheduler's choice is spent (20_memory.md section 11; D13; log
entry 8). -/
def Obligations.WaitingRequestKeepsItsPlace : Prop :=
  ∀ s u : State, step s = .next u → u.resp = .waiting → nextRequest s ≠ none →
    sameBlock s u ∧ u.agents = s.agents ∧ u.sched = s.sched.tail ∧ u.started = s.started

/-- `RECV_BLK` and `MD_FETCH` on an empty mailbox, and `EV_WAIT` with no requested flag up: with a finite wait
that the scheduler lets time out, the timeout response and no change; else they wait (43_can_receive.md section 2;
44_can_mode_decode.md section 2; 45_event_flags.md section 2; D13, D15, D20). THE MODEL'S CHOICE, log entry 8: that a
wait answers a next state with the response `waiting`, where the spec says the operation has no step, and that `expire`
holds the scheduler's decision on the timeout. -/
def Obligations.WaitsEitherExpireOrWait : Prop :=
  ∀ (s : State) (finite clearOnExit : Bool) (mask : Byte),
    (s.mbFull = false → finite = true → s.expire = true →
      exec (.recvBlk finite) s = .next { s with resp := .frame none }
      ∧ exec (.mdFetch finite) s = .next { s with resp := .frame none })
    ∧ (s.mbFull = false → (finite = false ∨ s.expire = false) →
      exec (.recvBlk finite) s = .next { s with resp := .waiting }
      ∧ exec (.mdFetch finite) s = .next { s with resp := .waiting })
    ∧ (readEv s &&& mask &&& 0x7F = 0 → finite = true → s.expire = true →
      exec (.evWait mask clearOnExit finite) s = .next { s with resp := .flags (readEv s) true })
    ∧ (readEv s &&& mask &&& 0x7F = 0 → (finite = false ∨ s.expire = false) →
      exec (.evWait mask clearOnExit finite) s = .next { s with resp := .waiting })

/-! ## Timer front end -/

/-- `TICK` adds one to `cnt` modulo `2^CNT_W` and changes nothing else of the block; the model's own `wrapped`
notes a wrap (40_pwm_capture.md section 2, R132; D8; log entry 15). -/
def Obligations.TickCountsModuloTheCounterWidth : Prop :=
  ∀ s : State, s.cfg.cntW ≤ 32 →
    ∃ t, exec .tick s = .next t
      ∧ t.cnt.toNat = (s.cnt.toNat + 1) % 2 ^ s.cfg.cntW
      ∧ (t.wrapped = true ↔ s.wrapped = true ∨ 2 ^ s.cfg.cntW ≤ s.cnt.toNat + 1)
      ∧ t = { s with cnt := t.cnt, wrapped := t.wrapped, resp := .empty }

/-- `RISE` with the pin not high latches `cnt` as the period and restarts it; unarmed it only arms; armed and
with no wrap it captures the pair; after a wrap it captures the residues or, where the configuration says so, some
pair (93 U3). With the pin high it is refused (40_pwm_capture.md section 2, R133, R139; D8; log entry 15). -/
def Obligations.RiseLatchesThePeriodAndRestarts : Prop :=
  ∀ s : State,
    (s.lvl ≠ .high → s.armed = false →
      exec .rise s = .next { s with
          ccrPeriod := s.cnt, cnt := 0, lvl := .high, armed := true, wrapped := false, resp := .empty })
    ∧ (s.lvl ≠ .high → s.armed = true → (s.wrapped = false ∨ s.cfg.wrappedPair = .residues) →
      exec .rise s = .next { s with
          ccrPeriod := s.cnt, cnt := 0, lvl := .high, wrapped := false, periodTicks := s.cnt,
          pulseTicks := s.ccrPulse, hasNew := true, resp := .empty })
    ∧ (s.lvl ≠ .high → s.armed = true → s.wrapped = true → s.cfg.wrappedPair = .anyPair →
      ∃ p w, exec .rise s = .next { s with
          ccrPeriod := s.cnt, cnt := 0, lvl := .high, wrapped := false, periodTicks := p, pulseTicks := w,
          hasNew := true, draws := s.draws + 2, resp := .empty })
    ∧ (s.lvl = .high → exec .rise s = .refused .riseWhileHigh)

/-- `FALL` with the pin not low latches `cnt` as the pulse width and changes nothing else but the level; with the
pin low it is refused (40_pwm_capture.md section 2, R134; D8). -/
def Obligations.FallLatchesThePulseWidth : Prop :=
  ∀ s : State,
    (s.lvl ≠ .low → exec .fall s = .next { s with ccrPulse := s.cnt, lvl := .low, resp := .empty })
    ∧ (s.lvl = .low → exec .fall s = .refused .fallWhileLow)

/-- `CAPTURE` accepts every pair in every state, overwrites whatever the cell holds, read or unread, and sets
`has_new`; `RX_FRAME` with `len` at most 8 overwrites the mailbox whether its frame has been read or not. Neither
gives an indication of what was lost (20_memory.md R66). -/
def Obligations.InterruptWritesNeverBlockOrFail : Prop :=
  ∀ (s : State) (period pulse : U32) (f : Frame),
    exec (.capture period pulse) s
      = .next { s with periodTicks := period, pulseTicks := pulse, hasNew := true, resp := .empty }
    ∧ (f.len.toNat ≤ 8 → ∃ t, exec (.rxFrame f) s = .next t ∧ t.mb = f ∧ t.mbFull = true ∧ t.resp = .empty)

/-- One full period, a rise, `a` ticks, a fall, `b` ticks and a rise, is captured exactly when it is below
`2^CNT_W` ticks: the period is `a + b`, the pulse `a` (40_pwm_capture.md section 2, R135 (b), derived there). -/
def Obligations.OnePeriodIsCapturedExactly : Prop :=
  ∀ (s : State) (a b : Nat), s.cfg.cntW ≤ 32 → s.lvl ≠ .high → a + b < 2 ^ s.cfg.cntW →
    ∃ t, runOps ([.rise] ++ ticksOps a ++ [.fall] ++ ticksOps b ++ [.rise]) s = .next t
      ∧ t.periodTicks.toNat = a + b ∧ t.pulseTicks.toNat = a ∧ t.hasNew = true
      ∧ t.cnt = 0 ∧ t.lvl = .high ∧ t.armed = true

/-- A period of any length is captured as residues modulo `2^CNT_W` (40_pwm_capture.md section 4, R139; D8), where
the configuration takes the rule's outcome and not the free pair of 93 U3 (log entry 15). -/
def Obligations.LongPeriodIsCapturedAsResidues : Prop :=
  ∀ (s : State) (a b : Nat), s.cfg.cntW ≤ 32 → s.lvl ≠ .high → s.cfg.wrappedPair = .residues →
    ∃ t, runOps ([.rise] ++ ticksOps a ++ [.fall] ++ ticksOps b ++ [.rise]) s = .next t
      ∧ t.periodTicks.toNat = (a + b) % 2 ^ s.cfg.cntW ∧ t.pulseTicks.toNat = a % 2 ^ s.cfg.cntW
      ∧ t.hasNew = true

/-- A pair captured with no wrap since the last rise has its pulse not above its period, whatever ran before
(40_pwm_capture.md section 2, R135 (b), derived there). -/
def Obligations.CapturedPulseIsNotAboveThePeriod : Prop :=
  ∀ s t : State, Inv s → s.armed = true → s.wrapped = false → exec .rise s = .next t →
    t.pulseTicks.toNat ≤ t.periodTicks.toNat ∧ t.hasNew = true

/-! ## Angle decode -/

/-- `GET_ANGLE` with no new capture answers `valid = 0` at once and changes no state, whatever the pair is; and only a
`CAPTURE`, or the `RISE` that performs one, raises `has_new`, the `CAPTURE` with its pair written
(41_angle_decode.md R151). -/
def Obligations.GetAngleWithoutCaptureChangesNothing : Prop :=
  (∀ s : State, s.hasNew = false → exec .getAngle s = .next { s with resp := .angle none })
  ∧ (∀ (i : Instr) (s t : State), exec i s = .next t → s.hasNew = false → t.hasNew = true →
    (∃ period pulse, i = .capture period pulse ∧ t.periodTicks = period ∧ t.pulseTicks = pulse)
    ∨ (i = .rise ∧ s.armed = true))

/-- A pair is rejected when `P = 0`, `W = 0` or `W >= P`: it is consumed, the answer is `valid = 0`, and the zero
reference is not touched. It is accepted exactly when `0 < W < P`: it becomes the zero reference, or gives a valid
angle (41_angle_decode.md R152, in both number domains). -/
def Obligations.ValidityFilterAcceptsExactlyProperDuty : Prop :=
  ∀ s : State, s.hasNew = true →
    ((s.periodTicks.toNat = 0 ∨ s.pulseTicks.toNat = 0 ∨ s.periodTicks.toNat ≤ s.pulseTicks.toNat) →
      exec .getAngle s = .next { s with hasNew := false, resp := .angle none })
    ∧ (0 < s.pulseTicks.toNat → s.pulseTicks.toNat < s.periodTicks.toNat → Inv s →
      ∃ t, exec .getAngle s = .next t ∧ t.hasNew = false
        ∧ (s.zeroInit = false → t.zeroInit = true ∧ t.resp = .angle none)
        ∧ (s.zeroInit = true → ∃ rel, t = { s with hasNew := false, resp := .angle (some rel) }))

/-- Over the rationals the first accepted pair becomes the zero reference, `360*W/P` or `360*(P-W)/P` by the
polarity, and its answer is `valid = 0` (41_angle_decode.md sections 2 and 3, R153 to R156, R164). -/
def Obligations.FirstAcceptedPairBecomesTheZeroReference : Prop :=
  ∀ s : State, s.cfg.num = .rational → s.hasNew = true → s.zeroInit = false →
    0 < s.pulseTicks.toNat → s.pulseTicks.toNat < s.periodTicks.toNat →
    exec .getAngle s = .next { s with
      hasNew := false
      zeroInit := true
      zeroDegrees := (match s.cfg.polarity with
        | .high => 360 * (s.pulseTicks.toNat : Rat) / (s.periodTicks.toNat : Rat)
        | .low => 360 * ((s.periodTicks.toNat : Rat) - (s.pulseTicks.toNat : Rat)) / (s.periodTicks.toNat : Rat))
      resp := .angle none }

/-- Over the rationals, in both polarities, once there is a zero reference, an accepted pair gives the difference to
it wrapped into `[-180, 180]`: a difference already there is kept, both ends included; one above 180 comes down to
above -180; one below -180 comes up to below 180 (41_angle_decode.md sections 2 and 3, R157 to R159, R164). -/
def Obligations.RelativeAngleIsTheWrappedDifference : Prop :=
  ∀ s : State, s.cfg.num = .rational → s.hasNew = true → s.zeroInit = true →
    0 < s.pulseTicks.toNat → s.pulseTicks.toNat < s.periodTicks.toNat →
    ∃ (rel : Rat) (k : Int),
      exec .getAngle s = .next { s with hasNew := false, resp := .angle (some rel) }
      ∧ -180 ≤ rel ∧ rel ≤ 180
      ∧ rel = (match s.cfg.polarity with
          | .high => 360 * (s.pulseTicks.toNat : Rat) / (s.periodTicks.toNat : Rat)
          | .low =>
            360 * ((s.periodTicks.toNat : Rat) - (s.pulseTicks.toNat : Rat)) / (s.periodTicks.toNat : Rat))
          - s.zeroDegrees + 360 * (k : Rat)
      ∧ (k < 0 → -180 < rel) ∧ (0 < k → rel < 180)

/-- In binary32 every operation of the decode is rounded once, in the order of the rules: both counts, then the
quotient, then (for low polarity) `1 - duty`, then the product by 360; 360 itself normalises to 0. The first accepted
pair stores that angle as the zero reference; a later one answers its rounded difference to it, corrected by 360 at most
once and exactly. Divide first and multiply second; both polarities (41_angle_decode.md sections 2 and 3, R153 to R158,
R165; 00_scope.md section 5, R10; D4). -/
def Obligations.Binary32AngleRoundsEachOperation : Prop :=
  ∀ s : State, s.cfg.num = .binary32 → s.hasNew = true →
    0 < s.pulseTicks.toNat → s.pulseTicks.toNat < s.periodTicks.toNat →
    ∃ duty phase absolute : Rat,
      duty = roundB32 (roundB32 (s.pulseTicks.toNat : Rat) / roundB32 (s.periodTicks.toNat : Rat))
      ∧ phase = (match s.cfg.polarity with
        | .high => roundB32 (duty * 360)
        | .low => roundB32 (roundB32 (1 - duty) * 360))
      ∧ absolute = (if phase = 360 then 0 else phase)
      ∧ (s.zeroInit = false →
        exec .getAngle s
          = .next { s with hasNew := false, zeroInit := true, zeroDegrees := absolute, resp := .angle none })
      ∧ (s.zeroInit = true → 0 ≤ s.zeroDegrees → s.zeroDegrees < 360 →
        ∃ difference : Rat, difference = roundB32 (absolute - s.zeroDegrees)
          ∧ exec .getAngle s = .next { s with
              hasNew := false
              resp := .angle (some (if 180 < difference then difference - 360
                else if difference < -180 then difference + 360 else difference)) })

/-- In both number domains and both polarities, in every state of a run `GET_ANGLE` completes, changes only the
capture cell's flag, the zero reference and the response, and a valid angle lies in `[-180, 180]`
(41_angle_decode.md section 3, R165, and 46_adjacent_units.md section 1, R287). -/
def Obligations.AnglesOfARunStayWithinHalfATurn : Prop :=
  ∀ s : State, Inv s →
    ∃ t, exec .getAngle s = .next t
      ∧ t = { s with hasNew := false, zeroInit := t.zeroInit, zeroDegrees := t.zeroDegrees, resp := t.resp }
      ∧ (∀ rel, t.resp = .angle (some rel) → -180 ≤ rel ∧ rel ≤ 180)

/-- Between two resets the zero reference is set once: no operation but `RESET` changes it once it is set, and only
a `GET_ANGLE` that answers `valid = 0` sets it (41_angle_decode.md section 2, R156, R163). -/
def Obligations.ZeroReferenceIsSetOnce : Prop :=
  ∀ (i : Instr) (s t : State), exec i s = .next t → i ≠ .reset →
    (s.zeroInit = true → t.zeroInit = true ∧ t.zeroDegrees = s.zeroDegrees)
    ∧ (s.zeroInit = false → t.zeroInit = true → i = .getAngle ∧ t.resp = .angle none)

/-- The laws of `wrap180` over the rationals, for every argument: it has a value, in `[-180, 180]`, congruent to
the argument modulo 360, equal to it exactly when it is in that range, the same when applied again, and odd
(41_angle_decode.md section 2, R159 (a) to (d) and (g), derived there). -/
def Obligations.Wrap180Laws : Prop :=
  ∀ x : Rat, ∃ (y : Rat) (k : Int), wrap180 .rational x = some y
    ∧ -180 ≤ y ∧ y ≤ 180 ∧ y = x + 360 * (k : Rat)
    ∧ (y = x ↔ -180 ≤ x ∧ x ≤ 180)
    ∧ wrap180 .rational y = some y
    ∧ wrap180 .rational (-x) = some (-y)

/-- The loop of `wrap180` over the rationals equals its closed form (41_angle_decode.md section 2, R159 (e), derived
there). -/
def Obligations.Wrap180EqualsItsClosedForm : Prop :=
  ∀ x : Rat,
    (180 < x → wrap180 .rational x = some (x - 360 * (⌈(x - 180) / 360⌉ : Rat)))
    ∧ (x < -180 → wrap180 .rational x = some (x + 360 * (⌈(-180 - x) / 360⌉ : Rat)))
    ∧ (-180 ≤ x → x ≤ 180 → wrap180 .rational x = some x)

/-- Rounding to binary32 gives the value of a finite binary32 pattern; no finite binary32 value is nearer to the exact
one; and of two equally near the one with an even last fraction bit is taken: to nearest, ties to even
(00_scope.md section 5, R10; D4). -/
def Obligations.Binary32RoundingIsNearest : Prop :=
  ∀ q : Rat, |q| ≤ 2 ^ 127 →
    b32Value (b32Bits q) = .fin (roundB32 q)
    ∧ ∀ (v : Rat) (bits : U32), b32Value bits = .fin v →
      |roundB32 q - q| ≤ |v - q|
      ∧ (v ≠ roundB32 q → |v - q| = |roundB32 q - q| → (b32Bits q).getLsbD 0 = false)

/-- What the binary32 response word of a valid angle carries at bits 32:1 is a pattern with the angle's rounded value;
the angle operand made from that response has it too; and an angle that `GET_ANGLE` answers in binary32 in a state of a
run is already rounded, so the word and the operand carry the angle itself
(30_encoding.md sections 1, 2 and 7, R96, R97, R115; 41_angle_decode.md section 3, R165; D1, D4). -/
def Obligations.Binary32PatternHasTheRoundedValue : Prop :=
  (∀ (q : Rat) (fill : Nat), |q| ≤ 2 ^ 127 →
    (∃ w : BitVec 33, responseWord .binary32 fill (.angle (some q)) = some (33, w.toNat)
      ∧ w.getLsbD 0 = true ∧ b32Value (w.extractLsb' 1 32) = .fin (roundB32 q))
    ∧ angleValue (anglePortOf .binary32 q) = .fin (roundB32 q))
  ∧ (∀ (s t : State) (q : Rat), Inv s → s.cfg.num = .binary32 → exec .getAngle s = .next t →
    t.resp = .angle (some q) → roundB32 q = q)

/-- The layout of every response word, least significant field first: the presence bit, then the fields. With the
presence bit 0 the bits above it are whatever `fill` gives, since the spec leaves them unspecified (30_encoding.md
section 2, R97, R98; D1, D6). THE MODEL'S CHOICE, log entry 8: an operation that still waits has no word. -/
def Obligations.ResponseWordsHaveTheirLayout : Prop :=
  ∀ (dom : NumDomain) (fill : Nat),
    responseWord dom fill .empty = some (0, 0)
    ∧ responseWord dom fill .waiting = none
    ∧ (∀ q : Rat, responseWord .rational fill (.angle (some q)) = some (1, 1)
      ∧ ∃ w : BitVec 33, responseWord .binary32 fill (.angle (some q)) = some (33, w.toNat)
        ∧ w.getLsbD 0 = true ∧ w.extractLsb' 1 32 = b32Bits q)
    ∧ responseWord .rational fill (.angle none) = some (1, 0)
    ∧ (∃ w : BitVec 33, responseWord .binary32 fill (.angle none) = some (33, w.toNat) ∧ w.getLsbD 0 = false)
    ∧ (∀ p : BitTiming, ∃ w : BitVec 49, responseWord dom fill (.timing (some p)) = some (49, w.toNat)
      ∧ w.getLsbD 0 = true ∧ w.extractLsb' 1 32 = p.prescaler ∧ w.extractLsb' 33 8 = p.seg1
      ∧ w.extractLsb' 41 8 = p.seg2)
    ∧ (∃ w : BitVec 49, responseWord dom fill (.timing none) = some (49, w.toNat) ∧ w.getLsbD 0 = false)
    ∧ (∀ f : Frame, ∃ w : BitVec 103, responseWord dom fill (.frame (some f)) = some (103, w.toNat)
      ∧ w.getLsbD 0 = true ∧ w.extractLsb' 1 32 = f.id ∧ w.getLsbD 33 = f.ext ∧ w.getLsbD 34 = f.rtr
      ∧ w.extractLsb' 35 4 = f.len ∧ ∀ i : Fin 8, w.extractLsb' (39 + 8 * i.val) 8 = f.data[i])
    ∧ (∃ w : BitVec 103, responseWord dom fill (.frame none) = some (103, w.toNat) ∧ w.getLsbD 0 = false)
    ∧ (∀ (observed : Byte) (timedOut : Bool), ∃ w : BitVec 9,
      responseWord dom fill (.flags observed timedOut) = some (9, w.toNat)
      ∧ w.extractLsb' 0 8 = observed ∧ w.getLsbD 8 = timedOut)
    ∧ (∀ f : Frame, responseWord dom fill (.sent (some f)) = some (1, 1))
    ∧ responseWord dom fill (.sent none) = some (1, 0)

/-! ## Bit timing -/

/-- A found result divides the clock exactly, has every field within its bounds, is what the registers hold, and no
accepted candidate is nearer to `SAMPLE_TARGET`, nor equally near with a larger `TQ` (42_can_bit_timing.md section 4,
R190, derived there; the bounds and the target 7/8 are parameters of 00_scope.md section 4). -/
def Obligations.BitTimingResultIsExactAndNearest : Prop :=
  ∀ (s t : State) (clockHz bitrateBps : U32) (p : BitTiming), s.cfg.wf = true →
    exec (.btSynth clockHz bitrateBps) s = .next t → t.resp = .timing (some p) →
    ∃ tq : Nat, tq = 1 + p.seg1.toNat + p.seg2.toNat
      ∧ p.prescaler.toNat * bitrateBps.toNat * tq = clockHz.toNat
      ∧ s.cfg.prescMin ≤ p.prescaler.toNat ∧ p.prescaler.toNat ≤ s.cfg.prescMax
      ∧ s.cfg.seg1Min ≤ p.seg1.toNat ∧ p.seg1.toNat ≤ s.cfg.seg1Max
      ∧ s.cfg.seg2Min ≤ p.seg2.toNat ∧ p.seg2.toNat ≤ s.cfg.seg2Max
      ∧ s.cfg.tqMin ≤ tq ∧ tq ≤ s.cfg.tqMax
      ∧ t.btFound = true ∧ t.btPrescaler = p.prescaler ∧ t.btSeg1 = p.seg1 ∧ t.btSeg2 = p.seg2
      ∧ ∀ tq' seg2' : Nat, s.cfg.tqMin ≤ tq' → tq' ≤ s.cfg.tqMax → s.cfg.seg2Min ≤ seg2' → seg2' ≤ s.cfg.seg2Max →
          bitrateBps.toNat * tq' ≠ 0 → clockHz.toNat % (bitrateBps.toNat * tq') = 0 →
          s.cfg.prescMin ≤ clockHz.toNat / (bitrateBps.toNat * tq') →
          clockHz.toNat / (bitrateBps.toNat * tq') ≤ s.cfg.prescMax →
          seg2' + 1 + s.cfg.seg1Min ≤ tq' → tq' ≤ seg2' + 1 + s.cfg.seg1Max →
          |((tq : Rat) - p.seg2.toNat) / tq - (s.cfg.targetNum : Rat) / s.cfg.targetDen|
              ≤ |((tq' : Rat) - seg2') / tq' - (s.cfg.targetNum : Rat) / s.cfg.targetDen|
          ∧ (|((tq : Rat) - p.seg2.toNat) / tq - (s.cfg.targetNum : Rat) / s.cfg.targetDen|
              = |((tq' : Rat) - seg2') / tq' - (s.cfg.targetNum : Rat) / s.cfg.targetDen| → tq' ≤ tq)

/-- `BT_SYNTH` always completes. It finds a result exactly when some candidate is accepted, and then writes the four
registers and nothing else; with none it clears `bt_found` and leaves the value registers (42_can_bit_timing.md
sections 1 and 2, R180, R183, R186; D21, D24). -/
def Obligations.BitTimingFindsAResultExactlyWhenOneExists : Prop :=
  ∀ (s : State) (clockHz bitrateBps : U32),
    ((∃ tq seg2 : Nat, s.cfg.tqMin ≤ tq ∧ tq ≤ s.cfg.tqMax ∧ s.cfg.seg2Min ≤ seg2 ∧ seg2 ≤ s.cfg.seg2Max
        ∧ bitrateBps.toNat * tq ≠ 0 ∧ clockHz.toNat % (bitrateBps.toNat * tq) = 0
        ∧ s.cfg.prescMin ≤ clockHz.toNat / (bitrateBps.toNat * tq)
        ∧ clockHz.toNat / (bitrateBps.toNat * tq) ≤ s.cfg.prescMax
        ∧ seg2 + 1 + s.cfg.seg1Min ≤ tq ∧ tq ≤ seg2 + 1 + s.cfg.seg1Max) →
      ∃ p : BitTiming, exec (.btSynth clockHz bitrateBps) s = .next { s with
        btFound := true, btPrescaler := p.prescaler, btSeg1 := p.seg1, btSeg2 := p.seg2,
        resp := .timing (some p) })
    ∧ ((¬ ∃ tq seg2 : Nat, s.cfg.tqMin ≤ tq ∧ tq ≤ s.cfg.tqMax ∧ s.cfg.seg2Min ≤ seg2 ∧ seg2 ≤ s.cfg.seg2Max
        ∧ bitrateBps.toNat * tq ≠ 0 ∧ clockHz.toNat % (bitrateBps.toNat * tq) = 0
        ∧ s.cfg.prescMin ≤ clockHz.toNat / (bitrateBps.toNat * tq)
        ∧ clockHz.toNat / (bitrateBps.toNat * tq) ≤ s.cfg.prescMax
        ∧ seg2 + 1 + s.cfg.seg1Min ≤ tq ∧ tq ≤ seg2 + 1 + s.cfg.seg1Max) →
      exec (.btSynth clockHz bitrateBps) s = .next { s with btFound := false, resp := .timing none })

/-- For the default range of `TQ` and the values 00_scope.md section 4 fixes, the exhaustive search equals the walk of
the fixed table of 42_can_bit_timing.md section 4 (R192, derived there; ties by the smaller `seg2`, D22, log entry
17). -/
def Obligations.BitTimingSearchEqualsTheTable : Prop :=
  ∀ (cfg : Config) (clockHz bitrateBps : U32), cfg.fixedValues = true → cfg.tqMin = 8 → cfg.tqMax = 25 →
    cfg.seg2Tie = .smaller → synthesize cfg clockHz bitrateBps = tableSynthesize clockHz bitrateBps

/-- There is no result when an operand is 0, when the clock is no multiple of the bit rate, or when the ratio of the
two is below `PRESC_MIN * TQ_MIN` or above `PRESC_MAX * TQ_MAX`, which are `TQ_MIN` and `1024 * TQ_MAX` with the fixed
values (42_can_bit_timing.md section 3, R187, R188; D21). -/
def Obligations.NoBitTimingOutsideTheRatioBounds : Prop :=
  ∀ (s : State) (clockHz bitrateBps : U32), 1 ≤ s.cfg.prescMin →
    (clockHz.toNat = 0 ∨ bitrateBps.toNat = 0 ∨ clockHz.toNat % bitrateBps.toNat ≠ 0
      ∨ clockHz.toNat < s.cfg.prescMin * s.cfg.tqMin * bitrateBps.toNat
      ∨ s.cfg.prescMax * s.cfg.tqMax * bitrateBps.toNat < clockHz.toNat) →
    exec (.btSynth clockHz bitrateBps) s = .next { s with btFound := false, resp := .timing none }

/-! ## Receive path -/

/-- `RX_FRAME`: the operand's fields from the word; with `len` at most 8 the mailbox holds the frame, all 8 bytes as
delivered, its flag is up and `FRAME_RECEIVED` too where the notification is on; nothing else changes. With `len`
above 8 it is refused (43_can_receive.md R212). -/
def Obligations.RxFrameOverwritesTheMailbox : Prop :=
  (∀ (dom : NumDomain) (w : Word) (side : Rat), (w.extractLsb' 0 5).toNat = 8 →
    (w.extractLsb' 39 4).toNat ≤ 8 →
    ∃ f : Frame, decode dom w side = .ok (.rxFrame f)
      ∧ f.id = w.extractLsb' 5 32 ∧ f.ext = w.getLsbD 37 ∧ f.rtr = w.getLsbD 38 ∧ f.len = w.extractLsb' 39 4
      ∧ ∀ i : Fin 8, f.data[i] = w.extractLsb' (43 + 8 * i.val) 8)
  ∧ (∀ (s : State) (f : Frame), f.len.toNat ≤ 8 →
    ∃ t, exec (.rxFrame f) s = .next t
      ∧ readEv t = (if s.cfg.frameNotify = true then readEv s ||| 0x40 else readEv s)
      ∧ t = { s with mb := f, mbFull := true, ev := t.ev, resp := .empty })
  ∧ (∀ (s : State) (f : Frame), 8 < f.len.toNat → exec (.rxFrame f) s = .refused .frameLength)

/-- `RECV_NB`: on an empty mailbox `some = 0` and no change; on a full one the frame, once: the flag is cleared, and
`FRAME_RECEIVED` where the notification is on, and a second read finds nothing. No operation but `RX_FRAME` fills an
empty mailbox, so it finds nothing whatever else comes between (43_can_receive.md R214). -/
def Obligations.RecvNbDrainsTheMailboxOnce : Prop :=
  (∀ (dom : NumDomain) (w : Word) (side : Rat), (w.extractLsb' 0 5).toNat = 9 →
    decode dom w side = .ok .recvNb)
  ∧ (∀ s : State, s.mbFull = false → exec .recvNb s = .next { s with resp := .frame none })
  ∧ (∀ s : State, s.mbFull = true →
    ∃ t, exec .recvNb s = .next t
      ∧ readEv t = (if s.cfg.frameNotify = true then readEv s &&& ~~~0x40 else readEv s)
      ∧ t = { s with mbFull := false, ev := t.ev, resp := .frame (some s.mb) }
      ∧ exec .recvNb t = .next { t with resp := .frame none })
  ∧ (∀ (i : Instr) (s t : State), exec i s = .next t → s.mbFull = false → t.mbFull = true → ∃ f, i = .rxFrame f)
  ∧ (∀ (ops : List Instr) (s t : State), (∀ i ∈ ops, ∀ f, i ≠ .rxFrame f) → runOps (.recvNb :: ops) s = .next t →
    exec .recvNb t = .next { t with resp := .frame none })

/-- `RECV_BLK` and `MD_FETCH` on a full mailbox, whatever their timeout kind: `RECV_BLK` is the success branch of
`RECV_NB`; `MD_FETCH` also copies the frame into the latch and sets `md_have`, overwriting an unapplied frame
(43_can_receive.md section 2, R215; 44_can_mode_decode.md section 2, R231; D15). -/
def Obligations.BlockingReadsDrainAFullMailbox : Prop :=
  ∀ (s : State) (finite : Bool), s.mbFull = true →
    (∃ t, exec (.recvBlk finite) s = .next t
      ∧ readEv t = (if s.cfg.frameNotify = true then readEv s &&& ~~~0x40 else readEv s)
      ∧ t = { s with mbFull := false, ev := t.ev, resp := .frame (some s.mb) })
    ∧ (∃ t, exec (.mdFetch finite) s = .next t
      ∧ readEv t = (if s.cfg.frameNotify = true then readEv s &&& ~~~0x40 else readEv s)
      ∧ t = { s with mbFull := false, md := s.mb, mdHave := true, ev := t.ev, resp := .frame (some s.mb) })

/-- Of two frames received before a read only the second is ever seen, and only once (43_can_receive.md section 2,
R213, derived there; 20_memory.md section 6, R71). -/
def Obligations.LatestFrameWins : Prop :=
  ∀ (s : State) (f g : Frame), f.len.toNat ≤ 8 → g.len.toNat ≤ 8 →
    ∃ t u, runOps [.rxFrame f, .rxFrame g, .recvNb] s = .next t ∧ t.resp = .frame (some g)
      ∧ exec .recvNb t = .next u ∧ u.resp = .frame none ∧ sameBlock t u

/-! ## Mode decoder -/

/-- `MD_APPLY` on a latched data frame with a known mode byte: at `MODE_OFFSET`, which R7 fixes to 2, in a frame longer
than that; or, with the short-frame fallback on, the last byte of a frame no longer than that and not empty. The mode
field becomes the byte's flag and no other bit of `ev` changes (44_can_mode_decode.md sections 2 to 4, R232, R234, R235,
R237, R241; D17, D18). -/
def Obligations.MdApplySetsTheModeOfTheByte : Prop :=
  ∀ (s : State) (m : Byte), s.mdHave = true → s.md.rtr = false → m.toNat ≤ 3 →
    ((s.cfg.modeOffset < s.md.len.toNat ∧ s.md.data[s.cfg.modeOffset]? = some m)
      ∨ (s.cfg.shortFrameCompat = true ∧ 1 ≤ s.md.len.toNat ∧ s.md.len.toNat ≤ s.cfg.modeOffset
        ∧ s.md.data[s.md.len.toNat - 1]? = some m)) →
    ∃ t, exec .mdApply s = .next t
      ∧ readEv t = (readEv s &&& ~~~0x38)
          ||| (if m = 0x00 then 0x08 else if m = 0x01 then 0x10 else if m = 0x02 then 0x20 else 0x00)
      ∧ t = { s with mdHave := false, ev := t.ev, resp := .empty }

/-- Every other frame leaves `ev` as it is: none latched; no longer than `MODE_OFFSET`, without the fallback or with no
known last byte; an unknown mode byte. The last case is the spec's choice (D16); where the configuration takes the
other outcome of 93 U5 the byte counts as `NORMAL` (44_can_mode_decode.md sections 2 to 4, R235, R236, R241; log entry
16). -/
def Obligations.MdApplyDropsEveryOtherFrame : Prop :=
  ∀ s : State,
    (s.mdHave = false → exec .mdApply s = .next { s with resp := .empty })
    ∧ (s.mdHave = true → s.md.rtr = false → s.md.len.toNat ≤ s.cfg.modeOffset →
        (s.cfg.shortFrameCompat = false ∨ s.md.len.toNat = 0
          ∨ ∃ m : Byte, s.md.data[s.md.len.toNat - 1]? = some m ∧ 3 < m.toNat) →
        exec .mdApply s = .next { s with mdHave := false, resp := .empty })
    ∧ (∀ m : Byte, s.mdHave = true → s.md.rtr = false → s.cfg.modeOffset < s.md.len.toNat →
        s.md.data[s.cfg.modeOffset]? = some m → 3 < m.toNat →
        (s.cfg.unknownMode = .dropped → exec .mdApply s = .next { s with mdHave := false, resp := .empty })
        ∧ (s.cfg.unknownMode = .asNormal → ∃ t, exec .mdApply s = .next t ∧ readEv t = readEv s &&& ~~~0x38
            ∧ t = { s with mdHave := false, ev := t.ev, resp := .empty }))

/-- A remote frame is stored and drained like any other, then dropped whatever its length and payload are
(44_can_mode_decode.md R233). -/
def Obligations.RemoteFramesAreConsumedAndDropped : Prop :=
  (∀ s : State, s.mdHave = true → s.md.rtr = true →
    exec .mdApply s = .next { s with mdHave := false, resp := .empty })
  ∧ (∀ (s : State) (f : Frame) (finite : Bool), f.rtr = true → f.len.toNat ≤ 8 →
    ∃ t u v, exec (.rxFrame f) s = .next t ∧ t.mb = f ∧ t.mbFull = true
      ∧ exec (.mdFetch finite) t = .next u ∧ u.md = f ∧ u.mdHave = true ∧ u.mbFull = false
      ∧ exec .mdApply u = .next v ∧ v.ev = u.ev ∧ v.mdHave = false)

/-- No operation but `EV_SET` takes the mode field out of 000, 001, 010, 100, and an `MD_APPLY` that changes `ev`
brings it back whatever it was (44_can_mode_decode.md R238; 10_state.md R34). -/
def Obligations.ModeFlagsStayExclusive : Prop :=
  ∀ (i : Instr) (s t : State), exec i s = .next t →
    ((∀ m, i ≠ .evSet m) → readEv s &&& 0x38 ∈ [(0x00 : Byte), 0x08, 0x10, 0x20] →
      readEv t &&& 0x38 ∈ [(0x00 : Byte), 0x08, 0x10, 0x20])
    ∧ (i = .mdApply → readEv t ≠ readEv s → readEv t &&& 0x38 ∈ [(0x00 : Byte), 0x08, 0x10, 0x20])

/-- `MD_APPLY` does not look at the identifier, at `ext`, at the latched frame's other bytes, or at the mailbox: on a
full-length frame two states that differ there give the same `ev` (44_can_mode_decode.md section 4, R242, R243;
20_memory.md section 2, R62). -/
def Obligations.MdApplyReadsOnlyTheModeByte : Prop :=
  ∀ (s : State) (id : U32) (ext : Bool) (len : BitVec 4) (data : Payload) (mb : Frame) (full : Bool),
    s.cfg.modeOffset ≤ 7 → s.cfg.modeOffset < s.md.len.toNat → s.cfg.modeOffset < len.toNat →
    data[s.cfg.modeOffset]? = s.md.data[s.cfg.modeOffset]? →
    ∃ t u, exec .mdApply s = .next t
      ∧ exec .mdApply { s with
          md := { id := id, ext := ext, rtr := s.md.rtr, len := len, data := data }, mb := mb, mbFull := full }
        = .next u
      ∧ u.ev = t.ev ∧ u.mdHave = t.mdHave

/-- A frame received between the two halves of a decoder pass does not change what the pass does to the mode flags; it
waits in the mailbox (44_can_mode_decode.md section 4, R242, derived there). -/
def Obligations.ReceptionDoesNotDisturbAPass : Prop :=
  ∀ (s : State) (f : Frame) (finite : Bool), s.mbFull = true → f.len.toNat ≤ 8 →
    ∃ t u, runOps [.mdFetch finite, .rxFrame f, .mdApply] s = .next t
      ∧ runOps [.mdFetch finite, .mdApply] s = .next u
      ∧ readEv t &&& 0x3F = readEv u &&& 0x3F ∧ t.mb = f ∧ t.mbFull = true ∧ t.md = s.mb ∧ t.mdHave = false

/-! ## Event flags -/

/-- `EV_SET` raises exactly the named flags of its mask and `EV_CLEAR` lowers the flags of its mask, in every state;
bit 7 is ignored and bits 14:13 of the word too; `EV_SET` is allowed from interrupts and from tasks (45_event_flags.md
R261, and section 2, R262; D20). -/
def Obligations.EvSetAndEvClearWriteTheirMask : Prop :=
  (∀ (dom : NumDomain) (w : Word) (side : Rat),
    ((w.extractLsb' 0 5).toNat = 13 → decode dom w side = .ok (.evSet (w.extractLsb' 5 8)))
    ∧ ((w.extractLsb' 0 5).toNat = 14 → decode dom w side = .ok (.evClear (w.extractLsb' 5 8))))
  ∧ (∀ mask : Byte, allowed .interrupt (.evSet mask) = true ∧ allowed .task (.evSet mask) = true)
  ∧ (∀ (s : State) (mask : Byte),
    (∃ t, exec (.evSet mask) s = .next t ∧ readEv t = readEv s ||| (mask &&& 0x7F)
      ∧ t = { s with ev := t.ev, resp := .empty })
    ∧ (∃ t, exec (.evClear mask) s = .next t ∧ readEv t = readEv s &&& ~~~mask
      ∧ t = { s with ev := t.ev, resp := .empty }))

/-- `EV_WAIT` with a requested flag up returns the whole word from before any clear, clears every requested bit where
asked, and changes nothing else (45_event_flags.md section 2, R263; D20). -/
def Obligations.EvWaitReturnsTheWordAndClearsTheMask : Prop :=
  ∀ (s : State) (mask : Byte) (clearOnExit finite : Bool), readEv s &&& mask &&& 0x7F ≠ 0 →
    ∃ t, exec (.evWait mask clearOnExit finite) s = .next t
      ∧ readEv t = (if clearOnExit = true then readEv s &&& ~~~mask else readEv s)
      ∧ t = { s with ev := t.ev, resp := .flags (readEv s) false }

/-- The algebra of the flag operations: sets combine and commute, clears combine, operations on disjoint masks
commute, and a clear after a set of the same mask wins (45_event_flags.md section 3, R266, derived there). -/
def Obligations.FlagOperationsCombine : Prop :=
  ∀ (s : State) (a b : Byte),
    runOps [.evSet a, .evSet b] s = exec (.evSet (a ||| b)) s
    ∧ runOps [.evSet a, .evSet b] s = runOps [.evSet b, .evSet a] s
    ∧ runOps [.evClear a, .evClear b] s = exec (.evClear (a ||| b)) s
    ∧ (a &&& b = 0 → runOps [.evSet a, .evClear b] s = runOps [.evClear b, .evSet a] s)
    ∧ runOps [.evSet a, .evClear a] s = exec (.evClear a) s

/-- NO FLAG IS LOST UNSEEN: an operation that takes a flag from 1 to 0 is `RESET`, an `EV_CLEAR` or a clearing
`EV_WAIT` that names it, and that wait's response has it set; or `MD_APPLY` for a mode flag, or a drain of the mailbox
for `FRAME_RECEIVED` (20_memory.md section 8, R74; 45_event_flags.md section 3, R265; 10_state.md section 4, R34). -/
def Obligations.NoFlagIsLostUnseen : Prop :=
  ∀ (i : Instr) (s t : State) (b : Nat), exec i s = .next t →
    (readEv s).getLsbD b = true → (readEv t).getLsbD b = false →
    i = .reset
    ∨ (∃ mask, i = .evClear mask ∧ mask.getLsbD b = true)
    ∨ (∃ mask finite observed, i = .evWait mask true finite ∧ mask.getLsbD b = true
        ∧ t.resp = .flags observed false ∧ observed.getLsbD b = true)
    ∨ (i = .mdApply ∧ 3 ≤ b ∧ b ≤ 5)
    ∨ (b = 6 ∧ (i = .recvNb ∨ (∃ f, i = .recvBlk f) ∨ (∃ f, i = .mdFetch f)) ∧ t.resp = .frame (some s.mb))

/-- Each operation changes only its own bits of `ev`: the mode decoder bits 5:3, the state machine bits 2:0, the
receive path bit 6, the flag operations those of their mask (10_state.md section 4, R34, R37; 45_event_flags.md
section 3, R268). -/
def Obligations.FlagBitsBelongToTheirWriters : Prop :=
  ∀ (i : Instr) (s t : State), exec i s = .next t →
    readEv t &&& ~~~(evReach i) = readEv s &&& ~~~(evReach i)

/-! ## Adjacent units -/

/-- `FSM_SAMPLE` with `valid = 0` resets the three counters and keeps the state and the flags; with `valid = 1` it
always completes and writes only `steer`, the counters and `ev`. A valid sample in `CENTER` adds one to the counter of
the side whose test it passes, or makes that side's transition, and resets the counter of a side whose test it fails,
the other side's among them; in `LEFT` and `RIGHT` the same holds of the one counter there (46_adjacent_units.md section
1, R281 to R283; 00_scope.md section 5, R10; D4, D28). The operand is any, in either number domain; that a NaN passes no
test, and an infinity the turn test of its sign only, is IEEE 754's comparison (log entry 5). THE MODEL'S CHOICE: a
binary32 operand is compared with the unrounded threshold, also with one that is no binary32 value (log entry 24); the
premise of a positive `TH_TURN`, without which one angle could pass both tests, is log entry 1. -/
def Obligations.FailingSamplesResetTheDebounce : Prop :=
  (∀ (s : State) (a : AnglePort),
    exec (.fsmSample false a) s
      = .next { s with cntLeft := 0, cntRight := 0, cntCenter := 0, resp := .empty })
  ∧ (∀ (s : State) (a : AnglePort),
    ∃ t, exec (.fsmSample true a) s = .next t
      ∧ t = { s with
          steer := t.steer, cntLeft := t.cntLeft, cntRight := t.cntRight, cntCenter := t.cntCenter, ev := t.ev,
          resp := .empty })
  ∧ (∀ (s : State) (a : AnglePort), 1 ≤ s.cfg.debounceN → 0 < s.cfg.thTurn →
    (s.steer = .center → ((∃ q, angleValue a = .fin q ∧ s.cfg.thTurn ≤ q) ∨ angleValue a = .inf false) →
      (s.cntLeft + 1 < s.cfg.debounceN →
        exec (.fsmSample true a) s
          = .next { s with cntLeft := s.cntLeft + 1, cntRight := 0, resp := .empty })
      ∧ (s.cfg.debounceN ≤ s.cntLeft + 1 →
        ∃ t, exec (.fsmSample true a) s = .next t ∧ readEv t = readEv s ||| 0x01
          ∧ t = { s with
              steer := .left, cntLeft := 0, cntRight := 0, cntCenter := 0, ev := t.ev, resp := .empty }))
    ∧ (s.steer = .center → ((∃ q, angleValue a = .fin q ∧ q ≤ -s.cfg.thTurn) ∨ angleValue a = .inf true) →
      (s.cntRight + 1 < s.cfg.debounceN →
        exec (.fsmSample true a) s
          = .next { s with cntLeft := 0, cntRight := s.cntRight + 1, resp := .empty })
      ∧ (s.cfg.debounceN ≤ s.cntRight + 1 →
        ∃ t, exec (.fsmSample true a) s = .next t ∧ readEv t = readEv s ||| 0x02
          ∧ t = { s with
              steer := .right, cntLeft := 0, cntRight := 0, cntCenter := 0, ev := t.ev, resp := .empty }))
    ∧ (s.steer ≠ .center →
      (∃ q, angleValue a = .fin q ∧ -s.cfg.thCenter ≤ q ∧ q ≤ s.cfg.thCenter) →
      (s.cntCenter + 1 < s.cfg.debounceN →
        exec (.fsmSample true a) s = .next { s with cntCenter := s.cntCenter + 1, resp := .empty })
      ∧ (s.cfg.debounceN ≤ s.cntCenter + 1 →
        ∃ t, exec (.fsmSample true a) s = .next t ∧ readEv t = readEv s ||| 0x04
          ∧ t = { s with
              steer := .center, cntLeft := 0, cntRight := 0, cntCenter := 0, ev := t.ev, resp := .empty })))
  ∧ (∀ (s : State) (a : AnglePort), 1 ≤ s.cfg.debounceN →
    (s.steer = .center →
      ((∃ q, angleValue a = .fin q ∧ -s.cfg.thTurn < q ∧ q < s.cfg.thTurn) ∨ angleValue a = .nan) →
      exec (.fsmSample true a) s = .next { s with cntLeft := 0, cntRight := 0, resp := .empty })
    ∧ (s.steer ≠ .center →
      ((∃ q, angleValue a = .fin q ∧ (q < -s.cfg.thCenter ∨ s.cfg.thCenter < q))
        ∨ (∃ negative, angleValue a = .inf negative) ∨ angleValue a = .nan) →
      exec (.fsmSample true a) s = .next { s with cntCenter := 0, resp := .empty }))

/-- A RUN OF `N` QUALIFYING SAMPLES CAUSES EXACTLY ONE TRANSITION: from a fresh state fewer than `N` only count, and
the `N`th sets the flag, changes the state and clears the counters; towards `LEFT`, towards `RIGHT`, and back to
`CENTER`. The operands are any, in either number domain; an infinity qualifies for the turn of its sign
(46_adjacent_units.md section 1, R281, R283 to R285, derived there; log entry 5). THE MODEL'S CHOICE: a binary32 operand
is compared with the unrounded threshold, also with one that is no binary32 value (log entry 24); the premise of a
positive `TH_TURN` is log entry 1. -/
def Obligations.RunOfNSamplesCausesOneTransition : Prop :=
  ∀ (s : State) (angles : List AnglePort), s.cfg.wf = true → angles.length ≤ s.cfg.debounceN →
    s.cntLeft = 0 → s.cntRight = 0 → s.cntCenter = 0 →
    ∃ t, runOps (angles.map fun a => .fsmSample true a) s = .next t
      ∧ (s.steer = .center →
          (∀ a ∈ angles, (∃ q, angleValue a = .fin q ∧ s.cfg.thTurn ≤ q) ∨ angleValue a = .inf false) →
          (angles.length < s.cfg.debounceN → t.steer = .center ∧ t.cntLeft = angles.length ∧ readEv t = readEv s)
          ∧ (angles.length = s.cfg.debounceN → t.steer = .left ∧ readEv t = readEv s ||| 0x01
            ∧ t.cntLeft = 0 ∧ t.cntRight = 0 ∧ t.cntCenter = 0))
      ∧ (s.steer = .center →
          (∀ a ∈ angles, (∃ q, angleValue a = .fin q ∧ q ≤ -s.cfg.thTurn) ∨ angleValue a = .inf true) →
          (angles.length < s.cfg.debounceN → t.steer = .center ∧ t.cntRight = angles.length ∧ readEv t = readEv s)
          ∧ (angles.length = s.cfg.debounceN → t.steer = .right ∧ readEv t = readEv s ||| 0x02
            ∧ t.cntLeft = 0 ∧ t.cntRight = 0 ∧ t.cntCenter = 0))
      ∧ (s.steer ≠ .center →
          (∀ a ∈ angles, ∃ q, angleValue a = .fin q ∧ -s.cfg.thCenter ≤ q ∧ q ≤ s.cfg.thCenter) →
          (angles.length < s.cfg.debounceN →
            t.steer = s.steer ∧ t.cntCenter = angles.length ∧ readEv t = readEv s)
          ∧ (angles.length = s.cfg.debounceN → t.steer = .center ∧ readEv t = readEv s ||| 0x04
            ∧ t.cntLeft = 0 ∧ t.cntRight = 0 ∧ t.cntCenter = 0))

/-- No operation flips the steering state directly between `LEFT` and `RIGHT`, and none but a valid `FSM_SAMPLE` or
`RESET` changes it; a change raises the flag of the new state (46_adjacent_units.md section 1, R283, R284). -/
def Obligations.SteeringNeverFlipsDirectly : Prop :=
  ∀ (i : Instr) (s t : State), exec i s = .next t → i ≠ .reset → t.steer ≠ s.steer →
    (∃ a, i = .fsmSample true a)
    ∧ ((s.steer = .center ∧ t.steer = .left ∧ (readEv t).getLsbD 0 = true)
      ∨ (s.steer = .center ∧ t.steer = .right ∧ (readEv t).getLsbD 1 = true)
      ∨ (s.steer ≠ .center ∧ t.steer = .center ∧ (readEv t).getLsbD 2 = true))

/-- `CAN_SEND` answers `ok = 1`, handing over the operand unchanged, exactly when `len` is at most 8 and a transmit slot
is free, and changes no element of the block (46_adjacent_units.md section 2, R290, R291; D29; log entry 12). -/
def Obligations.CanSendAnswersAndChangesNothing : Prop :=
  ∀ (s : State) (f : Frame) (txFree : Bool),
    (f.len.toNat ≤ 8 → txFree = true → exec (.canSend f txFree) s = .next { s with resp := .sent (some f) })
    ∧ ((8 < f.len.toNat ∨ txFree = false) → exec (.canSend f txFree) s = .next { s with resp := .sent none })

/-! ## Reset, invariants, and rules over every operation -/

/-- `IDLE` changes nothing, in every state (70_reset_and_hazards.md section 1, R353; D1). -/
def Obligations.IdleChangesNothing : Prop :=
  ∀ s : State, exec .idle s = .next { s with resp := .empty }

/-- `RESET` is accepted in every state and gives every element that has one its reset value, whatever the free values
of the others are; the configuration, the agents and the schedule stay, and the invariant holds afterwards
(70_reset_and_hazards.md section 1, R350; 10_state.md section 8, R42; D9, D30; the free values are log entry 3). -/
def Obligations.ResetEstablishesTheStartState : Prop :=
  ∀ s : State, ∃ t, exec .reset s = .next t
    ∧ t.cnt = 0 ∧ t.lvl = .unknown ∧ t.armed = false ∧ t.hasNew = false ∧ t.zeroInit = false
    ∧ t.btFound = false ∧ t.mbFull = false ∧ t.mdHave = false ∧ t.ev = 0x00
    ∧ t.steer = .center ∧ t.cntLeft = 0 ∧ t.cntRight = 0 ∧ t.cntCenter = 0
    ∧ t.started = true ∧ t.resp = .empty
    ∧ t.cfg = s.cfg ∧ t.agents = s.agents ∧ t.sched = s.sched ∧ t.expire = s.expire
    ∧ (s.cfg.wf = true → Inv t)

/-- The state right after power-up satisfies the invariant (10_state.md section 8, R42, for the values the spec gives;
the others are log entries 2 and 4, and the invariant does not constrain them). -/
def Obligations.PowerUpStateSatisfiesTheInvariant : Prop := Inv State.reset

/-- EVERY STEP KEEPS THE INVARIANT: from every state that satisfies it, reached or not, for every request, context and
schedule (the invariants of 10_state.md sections 1 and 4; 40_pwm_capture.md section 2; 41_angle_decode.md section 3;
42_can_bit_timing.md section 4; 43_can_receive.md section 2; 46_adjacent_units.md section 1). -/
def Obligations.EveryStepKeepsTheInvariant : Prop :=
  ∀ s t : State, Inv s → step s = .next t → Inv t

/-- THE BLOCK NEVER TRAPS: from every state that satisfies the invariant no step faults, in either number domain
(60_exceptions.md section 1, R310; 41_angle_decode.md section 3, R165, R166; log entry 6). -/
def Obligations.NoStepFaultsFromTheInvariant : Prop :=
  ∀ (s : State) (e : Fault), Inv s → step s ≠ .fault e

/-- The access table, both halves. WRITES: an operation writes no group of state outside its row, nor the configuration,
the agents or the schedule. READS: two states that agree on the groups of its row (for `RESET`, which reads none, on
nothing) and on the parameters give the same kind of answer, the same response and the same groups of the row, whatever
the other groups hold. The timeout choice and the model's own `wrapped` and `draws` are inputs beside the row (log
entries 3, 8 and 15) (10_state.md section 4, R37, derived there; 20_memory.md section 9, R75). -/
def Obligations.OperationsTouchOnlyTheirGroups : Prop :=
  (∀ (i : Instr) (s t : State), exec i s = .next t →
    (∀ g : Group, mayWrite i g = false → sameGroup g s t)
    ∧ t.agents = s.agents ∧ t.sched = s.sched ∧ t.expire = s.expire ∧ (i ≠ .reset → t.started = s.started))
  ∧ (∀ (i : Instr) (s s' : State), (i = .reset ∨ ∀ g : Group, mayWrite i g = true → sameGroup g s s') →
    s'.cfg = s.cfg → s'.expire = s.expire → s'.wrapped = s.wrapped → s'.draws = s.draws →
    (∀ t, exec i s = .next t →
      ∃ t', exec i s' = .next t' ∧ t'.resp = t.resp ∧ ∀ g : Group, mayWrite i g = true → sameGroup g t t')
    ∧ (∀ e, exec i s = .fault e → exec i s' = .fault e)
    ∧ (∀ e, exec i s = .refused e → exec i s' = .refused e))

/-- The two handlers touch disjoint state: in either order they leave the same state (60_exceptions.md section 4,
R324; D26). -/
def Obligations.HandlersCommute : Prop :=
  ∀ (s : State) (period pulse : U32) (f : Frame),
    runOps [.capture period pulse, .rxFrame f] s = runOps [.rxFrame f, .capture period pulse] s

/-- THE AGENTS ARE THOSE OF THE TABLE, AT EVERY STEP: where each agent follows its row, in its order and number, no two
agents write one cell or read one cell, no request is refused for its word or its context, and every step leaves the
agents following their rows, also when another agent's operation falls between `GET_ANGLE` and `FSM_SAMPLE` or between
`MD_FETCH` and `MD_APPLY` (60_exceptions.md sections 5 and 6, R326, R327, R330, derived there; 20_memory.md section 6,
R69; 70_reset_and_hazards.md section 3, R359 to R361). How the model reads the table where it is silent, on `IDLE` and
on how many agents a row has, is log entry 26; `RISE` counts as a writer of the capture cell, log entry 9. -/
def Obligations.EveryStepKeepsTheContracts : Prop :=
  (∀ s : State, tableFollowed s = true → singleAccess s = true
    ∧ step s ≠ .refused .contextForbidden ∧ step s ≠ .refused .reservedSelector
    ∧ step s ≠ .refused .frameLength)
  ∧ (∀ s t : State, tableFollowed s = true → step s = .next t → tableFollowed t = true)
  ∧ (∀ s t : State, disciplined s = true → step s = .next t → disciplined t = true)
end

