-- ==== Sys2Proof/Laws/Number.lean ====
section
/-! SUPPORT. Rounding to binary32 keeps order, and the loops of `norm360` and `wrap180` end on the block's
inputs. -/

namespace Sys2Proof.Machine

open Sys2Proof

/-! Rounding of a quotient of naturals -/

theorem divHalfEven_ge (n d : Nat) : n / d ≤ divHalfEven n d := by
  unfold divHalfEven; split_ifs <;> omega

theorem divHalfEven_le (n d : Nat) : divHalfEven n d ≤ n / d + 1 := by
  unfold divHalfEven; split_ifs <;> omega

theorem divHalfEven_mul (m d : Nat) (hd : 0 < d) : divHalfEven (m * d) d = m := by
  simp only [divHalfEven, Nat.mul_mod_left, Nat.mul_div_cancel _ hd]
  split_ifs <;> omega

/-- Rounding depends only on the quotient and keeps order. -/
theorem divHalfEven_mono {n d m e : Nat} (hd : 0 < d) (he : 0 < e) (h : n * e ≤ m * d) :
    divHalfEven n d ≤ divHalfEven m e := by
  have hn := Nat.div_add_mod n d
  have hm := Nat.div_add_mod m e
  have hrn := Nat.mod_lt n hd
  have hrm := Nat.mod_lt m he
  have hq : n / d ≤ m / e := by
    rw [Nat.le_div_iff_mul_le he]
    have h1 : n / d * d ≤ n := Nat.div_mul_le_self n d
    have h2 : (n / d * e) * d ≤ m * d := by nlinarith
    exact Nat.le_of_mul_le_mul_right h2 hd
  rcases Nat.lt_or_eq_of_le hq with hlt | heq
  · exact le_trans (divHalfEven_le n d) (le_trans hlt (divHalfEven_ge m e))
  · have hr : n % d * e ≤ m % e * d := by
      have e1 : n * e = d * (n / d) * e + n % d * e := by rw [← Nat.add_mul, hn]
      have e2 : m * d = e * (m / e) * d + m % e * d := by rw [← Nat.add_mul, hm]
      have e3 : d * (n / d) * e = e * (m / e) * d := by rw [heq]; ring
      omega
    unfold divHalfEven
    rw [heq]
    split_ifs with a b c a' b' c' <;> first | omega | skip
    · exfalso; nlinarith
    · exfalso
      have : 2 * (m % e) = e := by omega
      nlinarith
    · exfalso
      have : 2 * (n % d) = d := by omega
      nlinarith

/-! Scaling by powers of two -/

theorem scaled_eq (m : Int) (k : Int) : scaled m k = (m : Rat) * (2 : Rat) ^ k := by
  unfold scaled
  rw [Rat.mkRat_eq_div]
  push_cast
  rcases le_total 0 k with h | h
  · obtain ⟨n, rfl⟩ := Int.eq_ofNat_of_zero_le h
    simp
  · obtain ⟨n, hn⟩ := Int.eq_ofNat_of_zero_le (show 0 ≤ -k by omega)
    obtain rfl : k = -(n : Int) := by omega
    simp [div_eq_mul_inv]

theorem rat_eq_natAbs_div {q : Rat} (hq : 0 ≤ q) : q = (q.num.natAbs : Rat) / (q.den : Rat) := by
  have h1 : (q.num.natAbs : Int) = q.num := Int.natAbs_of_nonneg (Rat.num_nonneg.mpr hq)
  have h2 : ((q.num.natAbs : Int) : Rat) = (q.num : Rat) := by rw [h1]
  rw [← Int.cast_natCast q.num.natAbs, h2, Rat.num_div_den]

theorem toNat_pow_split (k : Int) : (2 : Rat) ^ k.toNat = 2 ^ k * 2 ^ (-k).toNat := by
  have h2 : (2 : Rat) ≠ 0 := by norm_num
  rw [← zpow_natCast, ← zpow_natCast, ← zpow_add₀ h2]
  congr 1
  omega

/-- At most `m` units of `2 ^ k` are nearest to a value not above `m * 2 ^ k`. -/
theorem unitsOf_le {n d : Nat} {k : Int} {m : Nat} (hd : 0 < d)
    (h : (n : Rat) / d ≤ m * (2 : Rat) ^ k) : unitsOf n d k ≤ m := by
  have hD : 0 < d * 2 ^ k.toNat := by positivity
  rw [← divHalfEven_mul m 1 one_pos, unitsOf]
  apply divHalfEven_mono hD one_pos
  have hd' : (0 : Rat) < d := by exact_mod_cast hd
  rw [div_le_iff₀ hd'] at h
  have hp : (0 : Rat) < 2 ^ (-k).toNat := by positivity
  have key : (n : Rat) * 2 ^ (-k).toNat ≤ m * (d * 2 ^ k.toNat) := by
    rw [toNat_pow_split k]
    nlinarith
  have key' : n * 2 ^ (-k).toNat ≤ m * (d * 2 ^ k.toNat) := by exact_mod_cast key
  simpa using key'

/-- At least `m` units of `2 ^ k` are nearest to a value not below `m * 2 ^ k`. -/
theorem le_unitsOf {n d : Nat} {k : Int} {m : Nat} (hd : 0 < d)
    (h : m * (2 : Rat) ^ k ≤ (n : Rat) / d) : m ≤ unitsOf n d k := by
  have hD : 0 < d * 2 ^ k.toNat := by positivity
  rw [← divHalfEven_mul m 1 one_pos, unitsOf]
  apply divHalfEven_mono one_pos hD
  have hd' : (0 : Rat) < d := by exact_mod_cast hd
  rw [le_div_iff₀ hd'] at h
  have hp : (0 : Rat) < 2 ^ (-k).toNat := by positivity
  have key : m * (d * 2 ^ k.toNat) ≤ (n : Rat) * 2 ^ (-k).toNat := by
    rw [toNat_pow_split k]
    nlinarith
  have key' : m * (d * 2 ^ k.toNat) ≤ n * 2 ^ (-k).toNat := by exact_mod_cast key
  simpa using key'

theorem unitsOf_mono {n d m e : Nat} {k : Int} (hd : 0 < d) (he : 0 < e)
    (h : (n : Rat) / d ≤ (m : Rat) / e) : unitsOf n d k ≤ unitsOf m e k := by
  apply divHalfEven_mono (by positivity) (by positivity)
  have hd' : (0 : Rat) < d := by exact_mod_cast hd
  have he' : (0 : Rat) < e := by exact_mod_cast he
  rw [div_le_div_iff₀ hd' he'] at h
  have h' : n * e ≤ m * d := by exact_mod_cast h
  calc n * 2 ^ (-k).toNat * (e * 2 ^ k.toNat) = n * e * (2 ^ (-k).toNat * 2 ^ k.toNat) := by ring
    _ ≤ m * d * (2 ^ (-k).toNat * 2 ^ k.toNat) := Nat.mul_le_mul_right _ h'
    _ = m * 2 ^ (-k).toNat * (d * 2 ^ k.toNat) := by ring

/-- `2 ^ e ≤ n / d < 2 ^ (e + 1)` for the exponent `e` of a positive quotient. -/
theorem floorLog2_spec {n d : Nat} (hn : 0 < n) (hd : 0 < d) :
    (2 : Rat) ^ floorLog2 n d ≤ (n : Rat) / d ∧ (n : Rat) / d < (2 : Rat) ^ (floorLog2 n d + 1) := by
  have h2 : (2 : Rat) ≠ 0 := by norm_num
  have hd' : (0 : Rat) < d := by exact_mod_cast hd
  have n1 : (2 : Rat) ^ (Nat.log2 n : Int) ≤ n := by
    rw [zpow_natCast]; exact_mod_cast Nat.log2_self_le hn.ne'
  have n2 : (n : Rat) < 2 ^ ((Nat.log2 n : Int) + 1) := by
    have := Nat.lt_log2_self (n := n)
    have h3 : ((Nat.log2 n : Int) + 1) = ((Nat.log2 n + 1 : Nat) : Int) := by push_cast; ring
    rw [h3, zpow_natCast]; exact_mod_cast this
  have d1 : (2 : Rat) ^ (Nat.log2 d : Int) ≤ d := by
    rw [zpow_natCast]; exact_mod_cast Nat.log2_self_le hd.ne'
  have d2 : (d : Rat) < 2 ^ ((Nat.log2 d : Int) + 1) := by
    have := Nat.lt_log2_self (n := d)
    have h3 : ((Nat.log2 d : Int) + 1) = ((Nat.log2 d + 1 : Nat) : Int) := by push_cast; ring
    rw [h3, zpow_natCast]; exact_mod_cast this
  set a : Int := (Nat.log2 n : Int)
  set b : Int := (Nat.log2 d : Int)
  have hp : (0 : Rat) < 2 ^ (-(a - b)).toNat := by positivity
  have test : (d * 2 ^ (a - b).toNat ≤ n * 2 ^ (-(a - b)).toNat) ↔ (2 : Rat) ^ (a - b) ≤ (n : Rat) / d := by
    rw [le_div_iff₀ hd']
    have : (d * 2 ^ (a - b).toNat ≤ n * 2 ^ (-(a - b)).toNat)
        ↔ ((d : Rat) * 2 ^ (a - b).toNat ≤ n * 2 ^ (-(a - b)).toNat) := by exact_mod_cast Iff.rfl
    rw [this, toNat_pow_split]
    constructor
    · intro h; nlinarith
    · intro h; nlinarith
  have hi : (n : Rat) / d < 2 ^ (a - b + 1) := by
    rw [div_lt_iff₀ hd']
    have : (2 : Rat) ^ (a - b + 1) * 2 ^ b = 2 ^ (a + 1) := by rw [← zpow_add₀ h2]; congr 1; ring
    have hpos : (0 : Rat) < 2 ^ (a - b + 1) := by positivity
    nlinarith
  have lo : (2 : Rat) ^ (a - b - 1) ≤ (n : Rat) / d := by
    rw [le_div_iff₀ hd']
    have : (2 : Rat) ^ (a - b - 1) * 2 ^ (b + 1) = 2 ^ a := by rw [← zpow_add₀ h2]; congr 1; ring
    have hpos : (0 : Rat) < 2 ^ (a - b - 1) := by positivity
    nlinarith
  have unfolded : floorLog2 n d
      = if d * 2 ^ (a - b).toNat ≤ n * 2 ^ (-(a - b)).toNat then a - b else a - b - 1 := rfl
  rw [unfolded]
  split_ifs with h
  · exact ⟨test.mp h, hi⟩
  · refine ⟨lo, ?_⟩
    rw [show a - b - 1 + 1 = a - b by ring]
    exact not_le.mp fun hh => h (test.mpr hh)

/-! Rounding to binary32 -/

theorem roundB32_zero : roundB32 0 = 0 := by decide +kernel

/-- The rounded value of a positive rational. -/
theorem roundB32_pos {q : Rat} (hq : 0 < q) :
    roundB32 q = (unitsOf q.num.natAbs q.den (lastPlace (floorLog2 q.num.natAbs q.den)) : Rat)
      * (2 : Rat) ^ lastPlace (floorLog2 q.num.natAbs q.den) := by
  have h1 : 0 < q.num := Rat.num_pos.mpr hq
  unfold roundB32
  rw [if_neg h1.ne', scaled_eq, Int.sign_eq_one_of_pos h1]
  simp

theorem roundB32_nonneg {q : Rat} (hq : 0 ≤ q) : 0 ≤ roundB32 q := by
  rcases hq.eq_or_lt with rfl | h
  · rw [roundB32_zero]
  · rw [roundB32_pos h]; positivity

theorem roundB32_neg (q : Rat) : roundB32 (-q) = -roundB32 q := by
  unfold roundB32
  simp only [Rat.neg_num, Rat.neg_den, Int.natAbs_neg, Int.sign_neg, neg_eq_zero, scaled_eq]
  split_ifs
  · simp
  · push_cast; ring

theorem roundB32_mono_pos {p q : Rat} (hp : 0 < p) (h : p ≤ q) : roundB32 p ≤ roundB32 q := by
  have hq : 0 < q := lt_of_lt_of_le hp h
  have h2 : (1 : Rat) < 2 := by norm_num
  have np : 0 < p.num.natAbs := Int.natAbs_pos.mpr (Rat.num_pos.mpr hp).ne'
  have nq : 0 < q.num.natAbs := Int.natAbs_pos.mpr (Rat.num_pos.mpr hq).ne'
  have ep := rat_eq_natAbs_div hp.le
  have eq := rat_eq_natAbs_div hq.le
  obtain ⟨p1, p2⟩ := floorLog2_spec np p.den_pos
  obtain ⟨q1, q2⟩ := floorLog2_spec nq q.den_pos
  rw [roundB32_pos hp, roundB32_pos hq]
  have hpq : (p.num.natAbs : Rat) / p.den ≤ (q.num.natAbs : Rat) / q.den := by rw [← ep, ← eq]; exact h
  set e1 := floorLog2 p.num.natAbs p.den
  set e2 := floorLog2 q.num.natAbs q.den
  have he : e1 ≤ e2 := by
    have : (2 : Rat) ^ e1 < 2 ^ (e2 + 1) := lt_of_le_of_lt p1 (lt_of_le_of_lt hpq q2)
    have := (zpow_lt_zpow_iff_right₀ h2).mp this
    omega
  rcases eq_or_ne (lastPlace e1) (lastPlace e2) with hk | hk
  · rw [hk]
    have hu := unitsOf_mono (k := lastPlace e2) p.den_pos q.den_pos hpq
    have hu' : (unitsOf p.num.natAbs p.den (lastPlace e2) : Rat)
        ≤ unitsOf q.num.natAbs q.den (lastPlace e2) := by exact_mod_cast hu
    exact mul_le_mul_of_nonneg_right hu' (by positivity)
  · -- the places differ: `2 ^ e2` lies between the two and is a multiple of both places
    have k2 : lastPlace e2 = e2 - 23 := by unfold lastPlace at *; omega
    have k1 : lastPlace e1 ≤ e2 := by unfold lastPlace at *; omega
    have hlt : e1 < e2 := by unfold lastPlace at *; omega
    have h20 : (2 : Rat) ≠ 0 := by norm_num
    have split : ∀ k : Int, k ≤ e2 → ((2 ^ (e2 - k).toNat : Nat) : Rat) * 2 ^ k = 2 ^ e2 := by
      intro k hk
      push_cast
      rw [← zpow_natCast, ← zpow_add₀ h20]
      congr 1
      omega
    have up : unitsOf p.num.natAbs p.den (lastPlace e1) ≤ 2 ^ (e2 - lastPlace e1).toNat := by
      apply unitsOf_le p.den_pos
      rw [split _ k1]
      exact le_trans p2.le (zpow_le_zpow_right₀ h2.le (by omega))
    have dn : 2 ^ (e2 - lastPlace e2).toNat ≤ unitsOf q.num.natAbs q.den (lastPlace e2) := by
      apply le_unitsOf q.den_pos
      rw [split _ (by omega)]
      exact q1
    have up' : (unitsOf p.num.natAbs p.den (lastPlace e1) : Rat)
        ≤ ((2 ^ (e2 - lastPlace e1).toNat : Nat) : Rat) := by exact_mod_cast up
    have dn' : ((2 ^ (e2 - lastPlace e2).toNat : Nat) : Rat)
        ≤ (unitsOf q.num.natAbs q.den (lastPlace e2) : Rat) := by exact_mod_cast dn
    calc _ ≤ ((2 ^ (e2 - lastPlace e1).toNat : Nat) : Rat) * 2 ^ lastPlace e1 :=
          mul_le_mul_of_nonneg_right up' (by positivity)
      _ = 2 ^ e2 := split _ k1
      _ = ((2 ^ (e2 - lastPlace e2).toNat : Nat) : Rat) * 2 ^ lastPlace e2 := (split _ (by omega)).symm
      _ ≤ _ := mul_le_mul_of_nonneg_right dn' (by positivity)

/-- Rounding to binary32 keeps order. -/
theorem roundB32_mono {p q : Rat} (h : p ≤ q) : roundB32 p ≤ roundB32 q := by
  rcases lt_trichotomy p 0 with hp | rfl | hp
  · rcases lt_or_ge q 0 with hq | hq
    · have := roundB32_mono_pos (p := -q) (q := -p) (by linarith) (by linarith)
      rw [roundB32_neg, roundB32_neg] at this
      linarith
    · have h1 := roundB32_nonneg (q := -p) (by linarith)
      have h2 := roundB32_nonneg hq
      rw [roundB32_neg] at h1
      linarith
  · rw [roundB32_zero]; exact roundB32_nonneg h
  · exact roundB32_mono_pos hp h

/-- One rounding of either domain keeps order. -/
theorem numRound_mono (dom : NumDomain) {p q : Rat} (h : p ≤ q) : numRound dom p ≤ numRound dom q := by
  cases dom
  · exact h
  · exact roundB32_mono h

theorem numRound_nonneg (dom : NumDomain) {q : Rat} (h : 0 ≤ q) : 0 ≤ numRound dom q := by
  cases dom
  · exact h
  · exact roundB32_nonneg h

/-- The constants of the decode are representable (R10). -/
theorem numRound_const (dom : NumDomain) :
    numRound dom 0 = 0 ∧ numRound dom 1 = 1 ∧ numRound dom 180 = 180 ∧ numRound dom (-180) = -180
      ∧ numRound dom 360 = 360 ∧ numRound dom (-360) = -360 := by
  cases dom
  · exact ⟨rfl, rfl, rfl, rfl, rfl, rfl⟩
  · simp only [numRound]
    decide +kernel

/-! The loops -/

theorem whileLoop_stop {test : Rat → Bool} {body : Rat → Rat} {x : Rat} (n : Nat) (h : test x = false) :
    whileLoop test body n x = some x := by
  cases n <;> simp [whileLoop, h]

/-- What a loop that ends can end in: a value that fails the test and satisfies every loop invariant. -/
theorem whileLoop_some {test : Rat → Bool} {body : Rat → Rat} (P : Rat → Prop)
    (hP : ∀ y, P y → test y = true → P (body y)) {n : Nat} {x y : Rat} (hx : P x)
    (h : whileLoop test body n x = some y) : P y ∧ test y = false := by
  induction n generalizing x with
  | zero =>
    simp only [whileLoop] at h
    split at h
    · cases h
    · rename_i hh; injection h with h; subst h; exact ⟨hx, Bool.eq_false_iff.mpr hh⟩
  | succ n ih =>
    simp only [whileLoop] at h
    split at h
    · exact ih (hP _ hx ‹_›) h
    · rename_i hh; injection h with h; subst h; exact ⟨hx, Bool.eq_false_iff.mpr hh⟩

/-- One turn and out. -/
theorem whileLoop_once {test : Rat → Bool} {body : Rat → Rat} {x : Rat} (n : Nat) (h : test x = true)
    (h' : test (body x) = false) : whileLoop test body (n + 1) x = some (body x) := by
  simp [whileLoop, h, whileLoop_stop n h']

theorem turnBound_pos (x : Rat) : ∃ n, turnBound x = n + 1 := ⟨_, rfl⟩

end Sys2Proof.Machine
end

