-- ==== Sys2Proof/Laws/Angle.lean ====
section
/-! SUPPORT. `norm360`, `wrap180` and the parts of the angle decode on the block's inputs, in both number
domains. -/

namespace Sys2Proof.Machine

open Sys2Proof

theorem foldTurn_none (dom : NumDomain) {above below : Rat → Bool} {x : Rat} (h1 : above x = false)
    (h2 : below x = false) : foldTurn dom above below x = some x := by
  simp [foldTurn, whileLoop_stop _ h1, whileLoop_stop _ h2]

theorem foldTurn_down (dom : NumDomain) {above below : Rat → Bool} {x : Rat} (h1 : above x = true)
    (h2 : above (numRound dom (x - 360)) = false) (h3 : below (numRound dom (x - 360)) = false) :
    foldTurn dom above below x = some (numRound dom (x - 360)) := by
  obtain ⟨n, hn⟩ := turnBound_pos x
  simp only [foldTurn, hn]
  rw [whileLoop_once n h1 h2]
  exact whileLoop_stop _ h3

theorem foldTurn_up (dom : NumDomain) {above below : Rat → Bool} {x : Rat} (h1 : above x = false)
    (h2 : below x = true) (h3 : below (numRound dom (x + 360)) = false) :
    foldTurn dom above below x = some (numRound dom (x + 360)) := by
  obtain ⟨n, hn⟩ := turnBound_pos x
  simp only [foldTurn, whileLoop_stop _ h1, hn]
  exact whileLoop_once n h2 h3

/-- `norm360` on `[0, 360]`: 360 becomes 0, everything below is kept. -/
theorem norm360_small (dom : NumDomain) {x : Rat} (h0 : 0 ≤ x) (h1 : x ≤ 360) :
    norm360 dom x = some (if x = 360 then 0 else x) := by
  have n0 : ¬ x < 0 := not_lt.mpr h0
  split_ifs with h
  · subst h
    have e : numRound dom ((360 : Rat) - 360) = 0 := by
      rw [sub_self]; exact (numRound_const dom).1
    rw [norm360, foldTurn_down dom (by simp) (by rw [e]; decide +kernel) (by rw [e]; decide +kernel), e]
  · have : x < 360 := lt_of_le_of_ne h1 h
    rw [norm360, foldTurn_none dom (by simpa using this) (by simpa using h0)]

/-- `wrap180` keeps what is in its range. -/
theorem wrap180_kept (dom : NumDomain) {x : Rat} (h0 : -180 ≤ x) (h1 : x ≤ 180) :
    wrap180 dom x = some x := by
  rw [wrap180, foldTurn_none dom (by simpa using h1) (by simpa using h0)]

/-- `wrap180` on `[-360, 360]` needs at most one correction, in either domain (41_angle_decode.md R165). -/
theorem wrap180_small (dom : NumDomain) {x : Rat} (h0 : -360 ≤ x) (h1 : x ≤ 360) :
    ∃ y, wrap180 dom x = some y ∧ -180 ≤ y ∧ y ≤ 180 := by
  obtain ⟨r0, r1, r180, rm180, r360, rm360⟩ := numRound_const dom
  rcases lt_or_ge 180 x with h | h
  · have a : numRound dom (x - 360) ≤ 0 := by
      have := numRound_mono dom (show x - 360 ≤ 0 by linarith); rwa [r0] at this
    have b : -180 ≤ numRound dom (x - 360) := by
      have := numRound_mono dom (show -180 ≤ x - 360 by linarith); rwa [rm180] at this
    refine ⟨_, foldTurn_down dom (by simpa using h) ?_ ?_, b, by linarith⟩
    · simp only [decide_eq_false_iff_not, not_lt]; linarith
    · simp only [decide_eq_false_iff_not, not_lt]; exact b
  · rcases lt_or_ge x (-180) with h' | h'
    · have a : 0 ≤ numRound dom (x + 360) := by
        have := numRound_mono dom (show 0 ≤ x + 360 by linarith); rwa [r0] at this
      have b : numRound dom (x + 360) ≤ 180 := by
        have := numRound_mono dom (show x + 360 ≤ 180 by linarith); rwa [r180] at this
      refine ⟨_, foldTurn_up dom ?_ (by simpa using h') ?_, by linarith, b⟩
      · simp only [decide_eq_false_iff_not, not_lt]; exact h
      · simp only [decide_eq_false_iff_not, not_lt]; linarith
    · exact ⟨x, wrap180_kept dom h' h, h', h⟩

/-- The duty of an accepted pair, in either domain (41_angle_decode.md R153, R165). -/
theorem dutyOf_range (cfg : Config) {period pulse : U32} (h1 : pulse.toNat < period.toNat) :
    0 ≤ dutyOf cfg period pulse ∧ dutyOf cfg period pulse ≤ 1 := by
  obtain ⟨r0, r1, -⟩ := numRound_const cfg.num
  have hw : 0 ≤ ofU32 cfg.num pulse := numRound_nonneg _ (by positivity)
  have hp : 1 ≤ ofU32 cfg.num period := by
    have : (1 : Rat) ≤ (period.toNat : Rat) := by exact_mod_cast (show 1 ≤ period.toNat by omega)
    have := numRound_mono cfg.num this
    rwa [r1] at this
  have hle : ofU32 cfg.num pulse ≤ ofU32 cfg.num period :=
    numRound_mono cfg.num (by exact_mod_cast h1.le)
  have hpos : 0 < ofU32 cfg.num period := by linarith
  constructor
  · exact numRound_nonneg _ (div_nonneg hw hpos.le)
  · have := numRound_mono cfg.num ((div_le_one hpos).mpr hle)
    rwa [r1] at this

/-- The angle of an accepted pair before normalisation lies in `[0, 360]`. -/
theorem phaseAngle_range (cfg : Config) {d : Rat} (h0 : 0 ≤ d) (h1 : d ≤ 1) :
    0 ≤ phaseAngle cfg d ∧ phaseAngle cfg d ≤ 360 := by
  obtain ⟨r0, r1, -, -, r360, -⟩ := numRound_const cfg.num
  have scale : ∀ e : Rat, 0 ≤ e → e ≤ 1 →
      0 ≤ numRound cfg.num (e * 360) ∧ numRound cfg.num (e * 360) ≤ 360 := by
    intro e he0 he1
    refine ⟨numRound_nonneg _ (by linarith), ?_⟩
    have := numRound_mono cfg.num (show e * 360 ≤ 360 by linarith)
    rwa [r360] at this
  unfold phaseAngle
  split
  · exact scale d h0 h1
  · have a : 0 ≤ numRound cfg.num (1 - d) := numRound_nonneg _ (by linarith)
    have b : numRound cfg.num (1 - d) ≤ 1 := by
      have := numRound_mono cfg.num (show 1 - d ≤ 1 by linarith); rwa [r1] at this
    exact scale _ a b

/-- An accepted pair has an absolute angle, in `[0, 360)`, in either domain and either polarity. -/
theorem absoluteAngle_range (cfg : Config) {period pulse : U32} (h1 : pulse.toNat < period.toNat) :
    ∃ a, absoluteAngle cfg period pulse = some a ∧ 0 ≤ a ∧ a < 360 := by
  obtain ⟨d0, d1⟩ := dutyOf_range cfg h1
  obtain ⟨p0, p1⟩ := phaseAngle_range cfg d0 d1
  refine ⟨_, norm360_small cfg.num p0 p1, ?_⟩
  split_ifs with h
  · norm_num
  · exact ⟨p0, lt_of_le_of_ne p1 h⟩

/-- The relative angle exists and lies in `[-180, 180]` for a reference in `[0, 360)`. -/
theorem relativeAngle_range (cfg : Config) {a z : Rat} (ha0 : 0 ≤ a) (ha1 : a < 360) (hz0 : 0 ≤ z)
    (hz1 : z < 360) : ∃ r, relativeAngle cfg a z = some r ∧ -180 ≤ r ∧ r ≤ 180 := by
  obtain ⟨-, -, -, -, r360, rm360⟩ := numRound_const cfg.num
  apply wrap180_small
  · have := numRound_mono cfg.num (show -360 ≤ a - z by linarith); rwa [rm360] at this
  · have := numRound_mono cfg.num (show a - z ≤ 360 by linarith); rwa [r360] at this

/-- The absolute angle over the rationals is exact (41_angle_decode.md R164). -/
theorem absoluteAngle_rational {cfg : Config} (hn : cfg.num = .rational) {period pulse : U32}
    (h0 : 0 < pulse.toNat) (h1 : pulse.toNat < period.toNat) :
    absoluteAngle cfg period pulse = some (match cfg.polarity with
      | .high => 360 * (pulse.toNat : Rat) / (period.toNat : Rat)
      | .low => 360 * ((period.toNat : Rat) - (pulse.toNat : Rat)) / (period.toNat : Rat)) := by
  have hw : (0 : Rat) < pulse.toNat := by exact_mod_cast h0
  have hwp : (pulse.toNat : Rat) < period.toNat := by exact_mod_cast h1
  have hp : (0 : Rat) < period.toNat := by linarith
  have hd : dutyOf cfg period pulse = (pulse.toNat : Rat) / period.toNat := by
    simp [dutyOf, ofU32, hn, numRound]
  have hd0 : 0 < (pulse.toNat : Rat) / period.toNat := by positivity
  have hd1 : (pulse.toNat : Rat) / period.toNat < 1 := (div_lt_one hp).mpr hwp
  rw [absoluteAngle, hd]
  cases hpol : cfg.polarity
  · have e : phaseAngle cfg ((pulse.toNat : Rat) / period.toNat)
        = 360 * (pulse.toNat : Rat) / (period.toNat : Rat) := by
      simp only [phaseAngle, hpol, hn, numRound]; ring
    have e' : 360 * (pulse.toNat : Rat) / (period.toNat : Rat) = 360 * ((pulse.toNat : Rat) / period.toNat) := by
      ring
    rw [e, norm360_small _ (by rw [e']; linarith) (by rw [e']; linarith),
      if_neg (by rw [e']; intro h; linarith)]
  · have e : phaseAngle cfg ((pulse.toNat : Rat) / period.toNat)
        = 360 * (1 - (pulse.toNat : Rat) / period.toNat) := by
      simp only [phaseAngle, hpol, hn, numRound]; ring
    have e' : 360 * ((period.toNat : Rat) - (pulse.toNat : Rat)) / (period.toNat : Rat)
        = 360 * (1 - (pulse.toNat : Rat) / period.toNat) := by
      field_simp
    rw [e, norm360_small _ (by linarith) (by linarith), if_neg (by intro h; linarith)]
    simp only [e']

end Sys2Proof.Machine
end

