-- ==== Sys2Proof/Laws/BitTiming.lean ====
section
/-! SUPPORT. What the search of `BT_SYNTH` answers: its space, its acceptance test, its winner. -/

namespace Sys2Proof.Machine

open Sys2Proof

theorem mem_interval {lo hi n : Nat} : n ∈ interval lo hi ↔ lo ≤ n ∧ n ≤ hi := by
  simp only [interval, List.mem_range'_1]
  omega

theorem mem_searchSpace {cfg : Config} {c : Candidate} :
    c ∈ searchSpace cfg ↔ cfg.tqMin ≤ c.tq ∧ c.tq ≤ cfg.tqMax ∧ cfg.seg2Min ≤ c.seg2
      ∧ c.seg2 ≤ cfg.seg2Max := by
  obtain ⟨tq, seg2⟩ := c
  simp only [searchSpace, List.mem_flatMap, List.mem_map, mem_interval]
  constructor
  · rintro ⟨a, ha, b, hb, h⟩
    cases h
    omega
  · rintro ⟨h1, h2, h3, h4⟩
    exact ⟨tq, ⟨h1, h2⟩, seg2, ⟨h3, h4⟩, rfl⟩

theorem accepted_iff {cfg : Config} {clockHz bitrateBps : Nat} {c : Candidate} :
    accepted cfg clockHz bitrateBps c = true ↔
      bitrateBps * c.tq ≠ 0 ∧ clockHz % (bitrateBps * c.tq) = 0 ∧ cfg.prescMin ≤ clockHz / (bitrateBps * c.tq)
        ∧ clockHz / (bitrateBps * c.tq) ≤ cfg.prescMax ∧ c.seg2 + 1 + cfg.seg1Min ≤ c.tq
        ∧ c.tq ≤ c.seg2 + 1 + cfg.seg1Max := by
  simp only [accepted, Bool.and_eq_true, decide_eq_true_eq, and_assoc]
  simp only [prescalerOf, seg1Of]
  constructor
  · rintro ⟨h1, h2, h3, h4, h5, h6⟩
    exact ⟨h1, h2, h3, h4, by omega, by omega⟩
  · rintro ⟨h1, h2, h3, h4, h5, h6⟩
    exact ⟨h1, h2, h3, h4, by omega, by omega⟩

theorem bestOf_none {cfg : Config} {l : List Candidate} : bestOf cfg l = none ↔ l = [] := by
  cases l with
  | nil => simp [bestOf]
  | cons c cs =>
    simp only [bestOf]
    split
    · simp
    · split <;> simp

theorem bestOf_mem {cfg : Config} {l : List Candidate} {c : Candidate} (h : bestOf cfg l = some c) : c ∈ l := by
  induction l generalizing c with
  | nil => simp [bestOf] at h
  | cons x xs ih =>
    simp only [bestOf] at h
    split at h
    · simp_all
    · rename_i d hd
      split at h
      · injection h with h; subst h; exact List.mem_cons_of_mem _ (ih hd)
      · simp_all

/-- The distance order is a total preorder on candidates of positive `TQ`. -/
theorem closer_trans {cfg : Config} {a b c : Candidate} (hb : 0 < b.tq) (h1 : closer cfg b a = false) (h2 : closer cfg c b = false) :
    closer cfg c a = false := by
  simp only [closer, decide_eq_false_iff_not, not_lt] at *
  have e1 := Nat.mul_le_mul_right c.tq h1
  have e2 := Nat.mul_le_mul_right a.tq h2
  have : offTarget cfg a * c.tq * b.tq ≤ offTarget cfg c * a.tq * b.tq := by
    calc offTarget cfg a * c.tq * b.tq = offTarget cfg a * b.tq * c.tq := by ring
      _ ≤ offTarget cfg b * a.tq * c.tq := e1
      _ = offTarget cfg b * c.tq * a.tq := by ring
      _ ≤ offTarget cfg c * b.tq * a.tq := e2
      _ = offTarget cfg c * a.tq * b.tq := by ring
  exact Nat.le_of_mul_le_mul_right this hb

/-- What "not preferred" says of the distance and of `TQ` (42_can_bit_timing.md R185). -/
theorem not_preferred {cfg : Config} {c d : Candidate} (h : preferred cfg d c = false) :
    closer cfg d c = false ∧ (closer cfg c d = false → d.tq ≤ c.tq) := by
  simp only [preferred, Bool.or_eq_false_iff, Bool.and_eq_false_iff, Bool.not_eq_false'] at h
  obtain ⟨h1, h2⟩ := h
  refine ⟨h1, fun h3 => ?_⟩
  rcases h2 with h2 | h2
  · simp [h3] at h2
  · simpa using h2.1

theorem closer_of_preferred {cfg : Config} {c d : Candidate} (h : preferred cfg d c = true) :
    closer cfg c d = false ∧ (closer cfg d c = false → c.tq ≤ d.tq) := by
  simp only [preferred, Bool.or_eq_true, Bool.and_eq_true, Bool.not_eq_true', decide_eq_true_eq] at h
  rcases h with h | ⟨h, h'⟩
  · refine ⟨?_, fun hc => by rw [h] at hc; cases hc⟩
    simp only [closer, decide_eq_true_eq, decide_eq_false_iff_not] at *
    omega
  · refine ⟨h, fun _ => ?_⟩
    rcases h' with h' | h'
    · exact h'.le
    · omega

/-- The winner is nowhere beaten: nothing in the list is nearer to the sample point, and nothing equally near
has a larger `TQ` (42_can_bit_timing.md R190 (f)). -/
theorem bestOf_least {cfg : Config} {l : List Candidate} {c : Candidate} (hl : ∀ d ∈ l, 0 < d.tq)
    (h : bestOf cfg l = some c) :
    ∀ d ∈ l, closer cfg d c = false ∧ (closer cfg c d = false → d.tq ≤ c.tq) := by
  induction l generalizing c with
  | nil => simp [bestOf] at h
  | cons x xs ih =>
    have hxs : ∀ d ∈ xs, 0 < d.tq := fun d hd => hl d (List.mem_cons_of_mem _ hd)
    have refl : ∀ a : Candidate, closer cfg a a = false := fun a => by simp [closer]
    simp only [bestOf] at h
    split at h
    · rename_i hn
      injection h with h; subst h
      obtain rfl := bestOf_none.mp hn
      intro d hd
      obtain rfl : d = x := by simpa using hd
      exact ⟨refl d, fun _ => le_refl _⟩
    · rename_i b hb
      have best := ih hxs hb
      split at h
      · rename_i hp
        injection h with h; subst h
        intro d hd
        rcases List.mem_cons.mp hd with rfl | hd
        · exact closer_of_preferred hp
        · exact best d hd
      · rename_i hp
        injection h with h; subst h
        have np := not_preferred (Bool.eq_false_iff.mpr hp)
        intro d hd
        rcases List.mem_cons.mp hd with rfl | hd
        · exact ⟨refl d, fun _ => le_refl _⟩
        · have hbp : 0 < b.tq := hxs b (bestOf_mem hb)
          have hdp : 0 < d.tq := hxs d hd
          have hxp : 0 < x.tq := hl x (List.mem_cons_self ..)
          obtain ⟨b1, b2⟩ := best d hd
          have hdx : closer cfg d x = false := closer_trans hbp np.1 b1
          refine ⟨hdx, fun hxd => ?_⟩
          -- all three are equally near
          have hbd : closer cfg b d = false := closer_trans hxp hxd np.1
          have hxb : closer cfg x b = false := closer_trans hdp b1 hxd
          exact le_trans (b2 hbd) (np.2 hxb)

end Sys2Proof.Machine
end

