-- ==== Sys2Proof/Laws/Decode.lean ====
section
/-! SUPPORT. The fields of the formats: what an encoded word holds where. -/

namespace Sys2Proof

/-- A field that lies within the low part of a concatenation. -/
theorem extract_append_low {m n k : Nat} (x : BitVec m) (y : BitVec n) (lo : Nat) (h : lo + k ≤ n) :
    (x ++ y).extractLsb' lo k = y.extractLsb' lo k := by
  ext j hj
  simp only [BitVec.getElem_extractLsb', BitVec.getLsbD_append]
  simp [show lo + j < n by omega]

/-- A field that lies within the high part of a concatenation. -/
theorem extract_append_high {m n k : Nat} (x : BitVec m) (y : BitVec n) (lo : Nat) (h : n ≤ lo) :
    (x ++ y).extractLsb' lo k = x.extractLsb' (lo - n) k := by
  ext j hj
  simp only [BitVec.getElem_extractLsb', BitVec.getLsbD_append, show ¬ lo + j < n by omega]
  simp only [show lo - n + j = lo + j - n by omega]
  rfl

/-- A field of a widened word whose format holds it. -/
theorem extract_setWidth {n w : Nat} (x : BitVec n) (lo k : Nat) (h : lo + k ≤ n) (hw : n ≤ w) :
    (x.setWidth w).extractLsb' lo k = x.extractLsb' lo k := by
  ext j hj
  simp [show lo + j < w by omega]

theorem extract_whole {n : Nat} (x : BitVec n) (lo : Nat) (h : lo = 0) : x.extractLsb' lo n = x := by
  subst h; ext j hj; simp

theorem unpack_pack (p : Payload) : unpackPayload (packPayload p) = p := by
  have h : ∀ lo, (packPayload p).extractLsb' lo 8
      = BitVec.extractLsb' (n := 8 + 8 + 8 + 8 + 8 + 8 + 8 + 8) lo 8
        (p[7] ++ p[6] ++ p[5] ++ p[4] ++ p[3] ++ p[2] ++ p[1] ++ p[0]) := fun _ => rfl
  apply Vector.ext
  intro i hi
  simp only [unpackPayload, h]
  simp (disch := omega) only [extract_append_high, extract_append_low, extract_whole]
  interval_cases i <;> rfl

/-- Format F, field by field, with `tx_free` on top (30_encoding.md R94). -/
theorem formatF_fields (op : BitVec 5) (f : Frame) (top : BitVec 1) :
    frameField (top ++ formatF op f) = f ∧ selector (top ++ formatF op f) = op
      ∧ field (top ++ formatF op f) 107 1 = top := by
  have h : ∀ lo n, (top ++ formatF op f).extractLsb' lo n
      = BitVec.extractLsb' (n := 1 + (64 + 4 + 1 + 1 + 32 + 5)) lo n
        (top ++ (packPayload f.data ++ f.len ++ BitVec.ofBool f.rtr ++ BitVec.ofBool f.ext ++ f.id ++ op)) :=
    fun _ _ => rfl
  have hb : ∀ i, (top ++ formatF op f).getLsbD i = ((top ++ formatF op f).extractLsb' i 1).getLsbD 0 := by
    intro i; simp
  refine ⟨?_, ?_, ?_⟩
  · simp only [frameField, field, flag, hb, h]
    simp (disch := omega) only [extract_append_high, extract_append_low, extract_whole, unpack_pack]
    cases f
    simp
  · simp only [selector, field, h]
    simp (disch := omega) only [extract_append_low, extract_whole]
  · simp only [field, h]
    simp (disch := omega) only [extract_append_high, extract_whole]

/-- Format F without `tx_free` (30_encoding.md R94). -/
theorem formatF_setWidth (op : BitVec 5) (f : Frame) : (formatF op f).setWidth 108 = 0#1 ++ formatF op f := by
  ext j hj
  rw [BitVec.getElem_setWidth, BitVec.getElem_append]
  split_ifs with h
  · rw [BitVec.getLsbD_eq_getElem]
  · rw [BitVec.getLsbD_of_ge _ _ (by omega)]
    simp

/-- Format C (30_encoding.md R93). -/
theorem formatC_fields (op : BitVec 5) (a b : U32) :
    selector (formatC op a b) = op ∧ field (formatC op a b) 5 32 = a ∧ field (formatC op a b) 37 32 = b := by
  have h : ∀ lo n, lo + n ≤ 69 → (formatC op a b).extractLsb' lo n
      = BitVec.extractLsb' (n := 32 + 32 + 5) lo n (b ++ a ++ op) := fun lo n h =>
    extract_setWidth (n := 32 + 32 + 5) _ _ _ h (by omega)
  simp only [selector, field]
  simp (disch := omega) only [h, extract_append_high, extract_append_low, extract_whole]
  simp

/-- Format M (30_encoding.md R95). -/
theorem formatM_fields (op : BitVec 5) (m : Byte) (c f : Bool) :
    selector (formatM op m c f) = op ∧ field (formatM op m c f) 5 8 = m ∧ flag (formatM op m c f) 13 = c
      ∧ flag (formatM op m c f) 14 = f := by
  have h : ∀ lo n, lo + n ≤ 15 → (formatM op m c f).extractLsb' lo n
      = BitVec.extractLsb' (n := 1 + 1 + 8 + 5) lo n (BitVec.ofBool f ++ BitVec.ofBool c ++ m ++ op) :=
    fun lo n h => extract_setWidth (n := 1 + 1 + 8 + 5) _ _ _ h (by omega)
  have hb : ∀ i, (formatM op m c f).getLsbD i = ((formatM op m c f).extractLsb' i 1).getLsbD 0 := by
    intro i; simp
  simp only [selector, field, flag, hb]
  simp (disch := omega) only [h, extract_append_high, extract_append_low, extract_whole]
  simp

/-- Formats T and S without an angle (30_encoding.md R92, R96). -/
theorem formatT_fields (op : BitVec 5) (b : Bool) :
    selector (formatT op b) = op ∧ flag (formatT op b) 5 = b := by
  revert op b; decide

/-- Format S in binary32 (30_encoding.md R96). -/
theorem formatS32_fields (op : BitVec 5) (v : Bool) (p : U32) :
    selector (formatS32 op v p) = op ∧ flag (formatS32 op v p) 5 = v ∧ field (formatS32 op v p) 6 32 = p := by
  have h : ∀ lo n, lo + n ≤ 38 → (formatS32 op v p).extractLsb' lo n
      = BitVec.extractLsb' (n := 32 + 1 + 5) lo n (p ++ BitVec.ofBool v ++ op) := fun lo n h =>
    extract_setWidth (n := 32 + 1 + 5) _ _ _ h (by omega)
  have hb : ∀ i, (formatS32 op v p).getLsbD i = ((formatS32 op v p).extractLsb' i 1).getLsbD 0 := by
    intro i; simp
  simp only [selector, field, flag, hb]
  simp (disch := omega) only [h, extract_append_high, extract_append_low, extract_whole]
  simp

/-- A decoded operation is the one its word's selector names (30_encoding.md R90, R104). -/
theorem decode_selector {dom : NumDomain} {w : Word} {side : Rat} {i : Instr} (h : decode dom w side = .ok i) :
    selectorOf i = selector w := by
  apply BitVec.eq_of_toNat_eq
  unfold decode at h
  split at h
  case h_9 heq =>
    split at h
    · injection h with h; subst h; rw [heq]; rfl
    · cases h
  case h_19 => cases h
  all_goals
    rename_i heq
    injection h with h
    subst h
    rw [heq]
    rfl

end Sys2Proof
end

