-- ==== Sys2Proof/Laws/State.lean ====
section
/-! SUPPORT. One lemma per field per update of State, so that no proof unfolds a record update. -/

namespace Sys2Proof.Machine

open Sys2Proof

/-! `writeEv` -/

@[simp] theorem writeEv_cfg (s : State) (v : Byte) : (writeEv s v).cfg = s.cfg := rfl
@[simp] theorem writeEv_cnt (s : State) (v : Byte) : (writeEv s v).cnt = s.cnt := rfl
@[simp] theorem writeEv_ccrPeriod (s : State) (v : Byte) : (writeEv s v).ccrPeriod = s.ccrPeriod := rfl
@[simp] theorem writeEv_ccrPulse (s : State) (v : Byte) : (writeEv s v).ccrPulse = s.ccrPulse := rfl
@[simp] theorem writeEv_lvl (s : State) (v : Byte) : (writeEv s v).lvl = s.lvl := rfl
@[simp] theorem writeEv_armed (s : State) (v : Byte) : (writeEv s v).armed = s.armed := rfl
@[simp] theorem writeEv_periodTicks (s : State) (v : Byte) : (writeEv s v).periodTicks = s.periodTicks := rfl
@[simp] theorem writeEv_pulseTicks (s : State) (v : Byte) : (writeEv s v).pulseTicks = s.pulseTicks := rfl
@[simp] theorem writeEv_hasNew (s : State) (v : Byte) : (writeEv s v).hasNew = s.hasNew := rfl
@[simp] theorem writeEv_zeroInit (s : State) (v : Byte) : (writeEv s v).zeroInit = s.zeroInit := rfl
@[simp] theorem writeEv_zeroDegrees (s : State) (v : Byte) : (writeEv s v).zeroDegrees = s.zeroDegrees := rfl
@[simp] theorem writeEv_btFound (s : State) (v : Byte) : (writeEv s v).btFound = s.btFound := rfl
@[simp] theorem writeEv_btPrescaler (s : State) (v : Byte) : (writeEv s v).btPrescaler = s.btPrescaler := rfl
@[simp] theorem writeEv_btSeg1 (s : State) (v : Byte) : (writeEv s v).btSeg1 = s.btSeg1 := rfl
@[simp] theorem writeEv_btSeg2 (s : State) (v : Byte) : (writeEv s v).btSeg2 = s.btSeg2 := rfl
@[simp] theorem writeEv_mb (s : State) (v : Byte) : (writeEv s v).mb = s.mb := rfl
@[simp] theorem writeEv_mbFull (s : State) (v : Byte) : (writeEv s v).mbFull = s.mbFull := rfl
@[simp] theorem writeEv_md (s : State) (v : Byte) : (writeEv s v).md = s.md := rfl
@[simp] theorem writeEv_mdHave (s : State) (v : Byte) : (writeEv s v).mdHave = s.mdHave := rfl
@[simp] theorem writeEv_ev (s : State) (v : Byte) :
    (writeEv s v).ev = v &&& evValid := rfl
@[simp] theorem writeEv_steer (s : State) (v : Byte) : (writeEv s v).steer = s.steer := rfl
@[simp] theorem writeEv_cntLeft (s : State) (v : Byte) : (writeEv s v).cntLeft = s.cntLeft := rfl
@[simp] theorem writeEv_cntRight (s : State) (v : Byte) : (writeEv s v).cntRight = s.cntRight := rfl
@[simp] theorem writeEv_cntCenter (s : State) (v : Byte) : (writeEv s v).cntCenter = s.cntCenter := rfl
@[simp] theorem writeEv_resp (s : State) (v : Byte) : (writeEv s v).resp = s.resp := rfl
@[simp] theorem writeEv_agents (s : State) (v : Byte) : (writeEv s v).agents = s.agents := rfl
@[simp] theorem writeEv_sched (s : State) (v : Byte) : (writeEv s v).sched = s.sched := rfl
@[simp] theorem writeEv_expire (s : State) (v : Byte) : (writeEv s v).expire = s.expire := rfl
@[simp] theorem writeEv_started (s : State) (v : Byte) : (writeEv s v).started = s.started := rfl
@[simp] theorem writeEv_wrapped (s : State) (v : Byte) : (writeEv s v).wrapped = s.wrapped := rfl
@[simp] theorem writeEv_draws (s : State) (v : Byte) : (writeEv s v).draws = s.draws := rfl

/-! `setFlags` -/

@[simp] theorem setFlags_cfg (s : State) (m : Byte) : (setFlags s m).cfg = s.cfg := rfl
@[simp] theorem setFlags_cnt (s : State) (m : Byte) : (setFlags s m).cnt = s.cnt := rfl
@[simp] theorem setFlags_ccrPeriod (s : State) (m : Byte) : (setFlags s m).ccrPeriod = s.ccrPeriod := rfl
@[simp] theorem setFlags_ccrPulse (s : State) (m : Byte) : (setFlags s m).ccrPulse = s.ccrPulse := rfl
@[simp] theorem setFlags_lvl (s : State) (m : Byte) : (setFlags s m).lvl = s.lvl := rfl
@[simp] theorem setFlags_armed (s : State) (m : Byte) : (setFlags s m).armed = s.armed := rfl
@[simp] theorem setFlags_periodTicks (s : State) (m : Byte) : (setFlags s m).periodTicks = s.periodTicks := rfl
@[simp] theorem setFlags_pulseTicks (s : State) (m : Byte) : (setFlags s m).pulseTicks = s.pulseTicks := rfl
@[simp] theorem setFlags_hasNew (s : State) (m : Byte) : (setFlags s m).hasNew = s.hasNew := rfl
@[simp] theorem setFlags_zeroInit (s : State) (m : Byte) : (setFlags s m).zeroInit = s.zeroInit := rfl
@[simp] theorem setFlags_zeroDegrees (s : State) (m : Byte) : (setFlags s m).zeroDegrees = s.zeroDegrees := rfl
@[simp] theorem setFlags_btFound (s : State) (m : Byte) : (setFlags s m).btFound = s.btFound := rfl
@[simp] theorem setFlags_btPrescaler (s : State) (m : Byte) : (setFlags s m).btPrescaler = s.btPrescaler := rfl
@[simp] theorem setFlags_btSeg1 (s : State) (m : Byte) : (setFlags s m).btSeg1 = s.btSeg1 := rfl
@[simp] theorem setFlags_btSeg2 (s : State) (m : Byte) : (setFlags s m).btSeg2 = s.btSeg2 := rfl
@[simp] theorem setFlags_mb (s : State) (m : Byte) : (setFlags s m).mb = s.mb := rfl
@[simp] theorem setFlags_mbFull (s : State) (m : Byte) : (setFlags s m).mbFull = s.mbFull := rfl
@[simp] theorem setFlags_md (s : State) (m : Byte) : (setFlags s m).md = s.md := rfl
@[simp] theorem setFlags_mdHave (s : State) (m : Byte) : (setFlags s m).mdHave = s.mdHave := rfl
@[simp] theorem setFlags_ev (s : State) (m : Byte) :
    (setFlags s m).ev = (readEv s ||| (m &&& evValid)) &&& evValid := rfl
@[simp] theorem setFlags_steer (s : State) (m : Byte) : (setFlags s m).steer = s.steer := rfl
@[simp] theorem setFlags_cntLeft (s : State) (m : Byte) : (setFlags s m).cntLeft = s.cntLeft := rfl
@[simp] theorem setFlags_cntRight (s : State) (m : Byte) : (setFlags s m).cntRight = s.cntRight := rfl
@[simp] theorem setFlags_cntCenter (s : State) (m : Byte) : (setFlags s m).cntCenter = s.cntCenter := rfl
@[simp] theorem setFlags_resp (s : State) (m : Byte) : (setFlags s m).resp = s.resp := rfl
@[simp] theorem setFlags_agents (s : State) (m : Byte) : (setFlags s m).agents = s.agents := rfl
@[simp] theorem setFlags_sched (s : State) (m : Byte) : (setFlags s m).sched = s.sched := rfl
@[simp] theorem setFlags_expire (s : State) (m : Byte) : (setFlags s m).expire = s.expire := rfl
@[simp] theorem setFlags_started (s : State) (m : Byte) : (setFlags s m).started = s.started := rfl
@[simp] theorem setFlags_wrapped (s : State) (m : Byte) : (setFlags s m).wrapped = s.wrapped := rfl
@[simp] theorem setFlags_draws (s : State) (m : Byte) : (setFlags s m).draws = s.draws := rfl

/-! `clearFlags` -/

@[simp] theorem clearFlags_cfg (s : State) (m : Byte) : (clearFlags s m).cfg = s.cfg := rfl
@[simp] theorem clearFlags_cnt (s : State) (m : Byte) : (clearFlags s m).cnt = s.cnt := rfl
@[simp] theorem clearFlags_ccrPeriod (s : State) (m : Byte) : (clearFlags s m).ccrPeriod = s.ccrPeriod := rfl
@[simp] theorem clearFlags_ccrPulse (s : State) (m : Byte) : (clearFlags s m).ccrPulse = s.ccrPulse := rfl
@[simp] theorem clearFlags_lvl (s : State) (m : Byte) : (clearFlags s m).lvl = s.lvl := rfl
@[simp] theorem clearFlags_armed (s : State) (m : Byte) : (clearFlags s m).armed = s.armed := rfl
@[simp] theorem clearFlags_periodTicks (s : State) (m : Byte) : (clearFlags s m).periodTicks = s.periodTicks := rfl
@[simp] theorem clearFlags_pulseTicks (s : State) (m : Byte) : (clearFlags s m).pulseTicks = s.pulseTicks := rfl
@[simp] theorem clearFlags_hasNew (s : State) (m : Byte) : (clearFlags s m).hasNew = s.hasNew := rfl
@[simp] theorem clearFlags_zeroInit (s : State) (m : Byte) : (clearFlags s m).zeroInit = s.zeroInit := rfl
@[simp] theorem clearFlags_zeroDegrees (s : State) (m : Byte) : (clearFlags s m).zeroDegrees = s.zeroDegrees := rfl
@[simp] theorem clearFlags_btFound (s : State) (m : Byte) : (clearFlags s m).btFound = s.btFound := rfl
@[simp] theorem clearFlags_btPrescaler (s : State) (m : Byte) : (clearFlags s m).btPrescaler = s.btPrescaler := rfl
@[simp] theorem clearFlags_btSeg1 (s : State) (m : Byte) : (clearFlags s m).btSeg1 = s.btSeg1 := rfl
@[simp] theorem clearFlags_btSeg2 (s : State) (m : Byte) : (clearFlags s m).btSeg2 = s.btSeg2 := rfl
@[simp] theorem clearFlags_mb (s : State) (m : Byte) : (clearFlags s m).mb = s.mb := rfl
@[simp] theorem clearFlags_mbFull (s : State) (m : Byte) : (clearFlags s m).mbFull = s.mbFull := rfl
@[simp] theorem clearFlags_md (s : State) (m : Byte) : (clearFlags s m).md = s.md := rfl
@[simp] theorem clearFlags_mdHave (s : State) (m : Byte) : (clearFlags s m).mdHave = s.mdHave := rfl
@[simp] theorem clearFlags_ev (s : State) (m : Byte) :
    (clearFlags s m).ev = (readEv s &&& ~~~m) &&& evValid := rfl
@[simp] theorem clearFlags_steer (s : State) (m : Byte) : (clearFlags s m).steer = s.steer := rfl
@[simp] theorem clearFlags_cntLeft (s : State) (m : Byte) : (clearFlags s m).cntLeft = s.cntLeft := rfl
@[simp] theorem clearFlags_cntRight (s : State) (m : Byte) : (clearFlags s m).cntRight = s.cntRight := rfl
@[simp] theorem clearFlags_cntCenter (s : State) (m : Byte) : (clearFlags s m).cntCenter = s.cntCenter := rfl
@[simp] theorem clearFlags_resp (s : State) (m : Byte) : (clearFlags s m).resp = s.resp := rfl
@[simp] theorem clearFlags_agents (s : State) (m : Byte) : (clearFlags s m).agents = s.agents := rfl
@[simp] theorem clearFlags_sched (s : State) (m : Byte) : (clearFlags s m).sched = s.sched := rfl
@[simp] theorem clearFlags_expire (s : State) (m : Byte) : (clearFlags s m).expire = s.expire := rfl
@[simp] theorem clearFlags_started (s : State) (m : Byte) : (clearFlags s m).started = s.started := rfl
@[simp] theorem clearFlags_wrapped (s : State) (m : Byte) : (clearFlags s m).wrapped = s.wrapped := rfl
@[simp] theorem clearFlags_draws (s : State) (m : Byte) : (clearFlags s m).draws = s.draws := rfl

/-! `storeCapture` -/

@[simp] theorem storeCapture_cfg (s : State) (p w : U32) : (storeCapture s p w).cfg = s.cfg := rfl
@[simp] theorem storeCapture_cnt (s : State) (p w : U32) : (storeCapture s p w).cnt = s.cnt := rfl
@[simp] theorem storeCapture_ccrPeriod (s : State) (p w : U32) : (storeCapture s p w).ccrPeriod = s.ccrPeriod := rfl
@[simp] theorem storeCapture_ccrPulse (s : State) (p w : U32) : (storeCapture s p w).ccrPulse = s.ccrPulse := rfl
@[simp] theorem storeCapture_lvl (s : State) (p w : U32) : (storeCapture s p w).lvl = s.lvl := rfl
@[simp] theorem storeCapture_armed (s : State) (p w : U32) : (storeCapture s p w).armed = s.armed := rfl
@[simp] theorem storeCapture_periodTicks (s : State) (p w : U32) : (storeCapture s p w).periodTicks = p := rfl
@[simp] theorem storeCapture_pulseTicks (s : State) (p w : U32) : (storeCapture s p w).pulseTicks = w := rfl
@[simp] theorem storeCapture_hasNew (s : State) (p w : U32) : (storeCapture s p w).hasNew = true := rfl
@[simp] theorem storeCapture_zeroInit (s : State) (p w : U32) : (storeCapture s p w).zeroInit = s.zeroInit := rfl
@[simp] theorem storeCapture_zeroDegrees (s : State) (p w : U32) : (storeCapture s p w).zeroDegrees = s.zeroDegrees := rfl
@[simp] theorem storeCapture_btFound (s : State) (p w : U32) : (storeCapture s p w).btFound = s.btFound := rfl
@[simp] theorem storeCapture_btPrescaler (s : State) (p w : U32) : (storeCapture s p w).btPrescaler = s.btPrescaler := rfl
@[simp] theorem storeCapture_btSeg1 (s : State) (p w : U32) : (storeCapture s p w).btSeg1 = s.btSeg1 := rfl
@[simp] theorem storeCapture_btSeg2 (s : State) (p w : U32) : (storeCapture s p w).btSeg2 = s.btSeg2 := rfl
@[simp] theorem storeCapture_mb (s : State) (p w : U32) : (storeCapture s p w).mb = s.mb := rfl
@[simp] theorem storeCapture_mbFull (s : State) (p w : U32) : (storeCapture s p w).mbFull = s.mbFull := rfl
@[simp] theorem storeCapture_md (s : State) (p w : U32) : (storeCapture s p w).md = s.md := rfl
@[simp] theorem storeCapture_mdHave (s : State) (p w : U32) : (storeCapture s p w).mdHave = s.mdHave := rfl
@[simp] theorem storeCapture_ev (s : State) (p w : U32) : (storeCapture s p w).ev = s.ev := rfl
@[simp] theorem storeCapture_steer (s : State) (p w : U32) : (storeCapture s p w).steer = s.steer := rfl
@[simp] theorem storeCapture_cntLeft (s : State) (p w : U32) : (storeCapture s p w).cntLeft = s.cntLeft := rfl
@[simp] theorem storeCapture_cntRight (s : State) (p w : U32) : (storeCapture s p w).cntRight = s.cntRight := rfl
@[simp] theorem storeCapture_cntCenter (s : State) (p w : U32) : (storeCapture s p w).cntCenter = s.cntCenter := rfl
@[simp] theorem storeCapture_resp (s : State) (p w : U32) : (storeCapture s p w).resp = s.resp := rfl
@[simp] theorem storeCapture_agents (s : State) (p w : U32) : (storeCapture s p w).agents = s.agents := rfl
@[simp] theorem storeCapture_sched (s : State) (p w : U32) : (storeCapture s p w).sched = s.sched := rfl
@[simp] theorem storeCapture_expire (s : State) (p w : U32) : (storeCapture s p w).expire = s.expire := rfl
@[simp] theorem storeCapture_started (s : State) (p w : U32) : (storeCapture s p w).started = s.started := rfl
@[simp] theorem storeCapture_wrapped (s : State) (p w : U32) : (storeCapture s p w).wrapped = s.wrapped := rfl
@[simp] theorem storeCapture_draws (s : State) (p w : U32) : (storeCapture s p w).draws = s.draws := rfl

/-! `clearCounters` -/

@[simp] theorem clearCounters_cfg (s : State) : (clearCounters s).cfg = s.cfg := rfl
@[simp] theorem clearCounters_cnt (s : State) : (clearCounters s).cnt = s.cnt := rfl
@[simp] theorem clearCounters_ccrPeriod (s : State) : (clearCounters s).ccrPeriod = s.ccrPeriod := rfl
@[simp] theorem clearCounters_ccrPulse (s : State) : (clearCounters s).ccrPulse = s.ccrPulse := rfl
@[simp] theorem clearCounters_lvl (s : State) : (clearCounters s).lvl = s.lvl := rfl
@[simp] theorem clearCounters_armed (s : State) : (clearCounters s).armed = s.armed := rfl
@[simp] theorem clearCounters_periodTicks (s : State) : (clearCounters s).periodTicks = s.periodTicks := rfl
@[simp] theorem clearCounters_pulseTicks (s : State) : (clearCounters s).pulseTicks = s.pulseTicks := rfl
@[simp] theorem clearCounters_hasNew (s : State) : (clearCounters s).hasNew = s.hasNew := rfl
@[simp] theorem clearCounters_zeroInit (s : State) : (clearCounters s).zeroInit = s.zeroInit := rfl
@[simp] theorem clearCounters_zeroDegrees (s : State) : (clearCounters s).zeroDegrees = s.zeroDegrees := rfl
@[simp] theorem clearCounters_btFound (s : State) : (clearCounters s).btFound = s.btFound := rfl
@[simp] theorem clearCounters_btPrescaler (s : State) : (clearCounters s).btPrescaler = s.btPrescaler := rfl
@[simp] theorem clearCounters_btSeg1 (s : State) : (clearCounters s).btSeg1 = s.btSeg1 := rfl
@[simp] theorem clearCounters_btSeg2 (s : State) : (clearCounters s).btSeg2 = s.btSeg2 := rfl
@[simp] theorem clearCounters_mb (s : State) : (clearCounters s).mb = s.mb := rfl
@[simp] theorem clearCounters_mbFull (s : State) : (clearCounters s).mbFull = s.mbFull := rfl
@[simp] theorem clearCounters_md (s : State) : (clearCounters s).md = s.md := rfl
@[simp] theorem clearCounters_mdHave (s : State) : (clearCounters s).mdHave = s.mdHave := rfl
@[simp] theorem clearCounters_ev (s : State) : (clearCounters s).ev = s.ev := rfl
@[simp] theorem clearCounters_steer (s : State) : (clearCounters s).steer = s.steer := rfl
@[simp] theorem clearCounters_cntLeft (s : State) : (clearCounters s).cntLeft = 0 := rfl
@[simp] theorem clearCounters_cntRight (s : State) : (clearCounters s).cntRight = 0 := rfl
@[simp] theorem clearCounters_cntCenter (s : State) : (clearCounters s).cntCenter = 0 := rfl
@[simp] theorem clearCounters_resp (s : State) : (clearCounters s).resp = s.resp := rfl
@[simp] theorem clearCounters_agents (s : State) : (clearCounters s).agents = s.agents := rfl
@[simp] theorem clearCounters_sched (s : State) : (clearCounters s).sched = s.sched := rfl
@[simp] theorem clearCounters_expire (s : State) : (clearCounters s).expire = s.expire := rfl
@[simp] theorem clearCounters_started (s : State) : (clearCounters s).started = s.started := rfl
@[simp] theorem clearCounters_wrapped (s : State) : (clearCounters s).wrapped = s.wrapped := rfl
@[simp] theorem clearCounters_draws (s : State) : (clearCounters s).draws = s.draws := rfl

/-! `enterSteer` -/

@[simp] theorem enterSteer_cfg (s : State) (x : Steer) (m : Byte) : (enterSteer s x m).cfg = s.cfg := rfl
@[simp] theorem enterSteer_cnt (s : State) (x : Steer) (m : Byte) : (enterSteer s x m).cnt = s.cnt := rfl
@[simp] theorem enterSteer_ccrPeriod (s : State) (x : Steer) (m : Byte) : (enterSteer s x m).ccrPeriod = s.ccrPeriod := rfl
@[simp] theorem enterSteer_ccrPulse (s : State) (x : Steer) (m : Byte) : (enterSteer s x m).ccrPulse = s.ccrPulse := rfl
@[simp] theorem enterSteer_lvl (s : State) (x : Steer) (m : Byte) : (enterSteer s x m).lvl = s.lvl := rfl
@[simp] theorem enterSteer_armed (s : State) (x : Steer) (m : Byte) : (enterSteer s x m).armed = s.armed := rfl
@[simp] theorem enterSteer_periodTicks (s : State) (x : Steer) (m : Byte) : (enterSteer s x m).periodTicks = s.periodTicks := rfl
@[simp] theorem enterSteer_pulseTicks (s : State) (x : Steer) (m : Byte) : (enterSteer s x m).pulseTicks = s.pulseTicks := rfl
@[simp] theorem enterSteer_hasNew (s : State) (x : Steer) (m : Byte) : (enterSteer s x m).hasNew = s.hasNew := rfl
@[simp] theorem enterSteer_zeroInit (s : State) (x : Steer) (m : Byte) : (enterSteer s x m).zeroInit = s.zeroInit := rfl
@[simp] theorem enterSteer_zeroDegrees (s : State) (x : Steer) (m : Byte) : (enterSteer s x m).zeroDegrees = s.zeroDegrees := rfl
@[simp] theorem enterSteer_btFound (s : State) (x : Steer) (m : Byte) : (enterSteer s x m).btFound = s.btFound := rfl
@[simp] theorem enterSteer_btPrescaler (s : State) (x : Steer) (m : Byte) : (enterSteer s x m).btPrescaler = s.btPrescaler := rfl
@[simp] theorem enterSteer_btSeg1 (s : State) (x : Steer) (m : Byte) : (enterSteer s x m).btSeg1 = s.btSeg1 := rfl
@[simp] theorem enterSteer_btSeg2 (s : State) (x : Steer) (m : Byte) : (enterSteer s x m).btSeg2 = s.btSeg2 := rfl
@[simp] theorem enterSteer_mb (s : State) (x : Steer) (m : Byte) : (enterSteer s x m).mb = s.mb := rfl
@[simp] theorem enterSteer_mbFull (s : State) (x : Steer) (m : Byte) : (enterSteer s x m).mbFull = s.mbFull := rfl
@[simp] theorem enterSteer_md (s : State) (x : Steer) (m : Byte) : (enterSteer s x m).md = s.md := rfl
@[simp] theorem enterSteer_mdHave (s : State) (x : Steer) (m : Byte) : (enterSteer s x m).mdHave = s.mdHave := rfl
@[simp] theorem enterSteer_ev (s : State) (x : Steer) (m : Byte) :
    (enterSteer s x m).ev = (readEv s ||| (m &&& evValid)) &&& evValid := rfl
@[simp] theorem enterSteer_steer (s : State) (x : Steer) (m : Byte) : (enterSteer s x m).steer = x := rfl
@[simp] theorem enterSteer_cntLeft (s : State) (x : Steer) (m : Byte) : (enterSteer s x m).cntLeft = 0 := rfl
@[simp] theorem enterSteer_cntRight (s : State) (x : Steer) (m : Byte) : (enterSteer s x m).cntRight = 0 := rfl
@[simp] theorem enterSteer_cntCenter (s : State) (x : Steer) (m : Byte) : (enterSteer s x m).cntCenter = 0 := rfl
@[simp] theorem enterSteer_resp (s : State) (x : Steer) (m : Byte) : (enterSteer s x m).resp = s.resp := rfl
@[simp] theorem enterSteer_agents (s : State) (x : Steer) (m : Byte) : (enterSteer s x m).agents = s.agents := rfl
@[simp] theorem enterSteer_sched (s : State) (x : Steer) (m : Byte) : (enterSteer s x m).sched = s.sched := rfl
@[simp] theorem enterSteer_expire (s : State) (x : Steer) (m : Byte) : (enterSteer s x m).expire = s.expire := rfl
@[simp] theorem enterSteer_started (s : State) (x : Steer) (m : Byte) : (enterSteer s x m).started = s.started := rfl
@[simp] theorem enterSteer_wrapped (s : State) (x : Steer) (m : Byte) : (enterSteer s x m).wrapped = s.wrapped := rfl
@[simp] theorem enterSteer_draws (s : State) (x : Steer) (m : Byte) : (enterSteer s x m).draws = s.draws := rfl

/-! `latchRise` -/

@[simp] theorem latchRise_cfg (s : State) : (latchRise s).cfg = s.cfg := rfl
@[simp] theorem latchRise_cnt (s : State) : (latchRise s).cnt = 0 := rfl
@[simp] theorem latchRise_ccrPeriod (s : State) : (latchRise s).ccrPeriod = s.cnt := rfl
@[simp] theorem latchRise_ccrPulse (s : State) : (latchRise s).ccrPulse = s.ccrPulse := rfl
@[simp] theorem latchRise_lvl (s : State) : (latchRise s).lvl = .high := rfl
@[simp] theorem latchRise_armed (s : State) : (latchRise s).armed = true := rfl
@[simp] theorem latchRise_periodTicks (s : State) : (latchRise s).periodTicks = s.periodTicks := rfl
@[simp] theorem latchRise_pulseTicks (s : State) : (latchRise s).pulseTicks = s.pulseTicks := rfl
@[simp] theorem latchRise_hasNew (s : State) : (latchRise s).hasNew = s.hasNew := rfl
@[simp] theorem latchRise_zeroInit (s : State) : (latchRise s).zeroInit = s.zeroInit := rfl
@[simp] theorem latchRise_zeroDegrees (s : State) : (latchRise s).zeroDegrees = s.zeroDegrees := rfl
@[simp] theorem latchRise_btFound (s : State) : (latchRise s).btFound = s.btFound := rfl
@[simp] theorem latchRise_btPrescaler (s : State) : (latchRise s).btPrescaler = s.btPrescaler := rfl
@[simp] theorem latchRise_btSeg1 (s : State) : (latchRise s).btSeg1 = s.btSeg1 := rfl
@[simp] theorem latchRise_btSeg2 (s : State) : (latchRise s).btSeg2 = s.btSeg2 := rfl
@[simp] theorem latchRise_mb (s : State) : (latchRise s).mb = s.mb := rfl
@[simp] theorem latchRise_mbFull (s : State) : (latchRise s).mbFull = s.mbFull := rfl
@[simp] theorem latchRise_md (s : State) : (latchRise s).md = s.md := rfl
@[simp] theorem latchRise_mdHave (s : State) : (latchRise s).mdHave = s.mdHave := rfl
@[simp] theorem latchRise_ev (s : State) : (latchRise s).ev = s.ev := rfl
@[simp] theorem latchRise_steer (s : State) : (latchRise s).steer = s.steer := rfl
@[simp] theorem latchRise_cntLeft (s : State) : (latchRise s).cntLeft = s.cntLeft := rfl
@[simp] theorem latchRise_cntRight (s : State) : (latchRise s).cntRight = s.cntRight := rfl
@[simp] theorem latchRise_cntCenter (s : State) : (latchRise s).cntCenter = s.cntCenter := rfl
@[simp] theorem latchRise_resp (s : State) : (latchRise s).resp = s.resp := rfl
@[simp] theorem latchRise_agents (s : State) : (latchRise s).agents = s.agents := rfl
@[simp] theorem latchRise_sched (s : State) : (latchRise s).sched = s.sched := rfl
@[simp] theorem latchRise_expire (s : State) : (latchRise s).expire = s.expire := rfl
@[simp] theorem latchRise_started (s : State) : (latchRise s).started = s.started := rfl
@[simp] theorem latchRise_wrapped (s : State) : (latchRise s).wrapped = false := rfl
@[simp] theorem latchRise_draws (s : State) : (latchRise s).draws = s.draws := rfl

/-! `beginTurn` -/

@[simp] theorem beginTurn_cfg (x : Turn) (s : State) : (beginTurn x s).cfg = s.cfg := rfl
@[simp] theorem beginTurn_cnt (x : Turn) (s : State) : (beginTurn x s).cnt = s.cnt := rfl
@[simp] theorem beginTurn_ccrPeriod (x : Turn) (s : State) : (beginTurn x s).ccrPeriod = s.ccrPeriod := rfl
@[simp] theorem beginTurn_ccrPulse (x : Turn) (s : State) : (beginTurn x s).ccrPulse = s.ccrPulse := rfl
@[simp] theorem beginTurn_lvl (x : Turn) (s : State) : (beginTurn x s).lvl = s.lvl := rfl
@[simp] theorem beginTurn_armed (x : Turn) (s : State) : (beginTurn x s).armed = s.armed := rfl
@[simp] theorem beginTurn_periodTicks (x : Turn) (s : State) : (beginTurn x s).periodTicks = s.periodTicks := rfl
@[simp] theorem beginTurn_pulseTicks (x : Turn) (s : State) : (beginTurn x s).pulseTicks = s.pulseTicks := rfl
@[simp] theorem beginTurn_hasNew (x : Turn) (s : State) : (beginTurn x s).hasNew = s.hasNew := rfl
@[simp] theorem beginTurn_zeroInit (x : Turn) (s : State) : (beginTurn x s).zeroInit = s.zeroInit := rfl
@[simp] theorem beginTurn_zeroDegrees (x : Turn) (s : State) : (beginTurn x s).zeroDegrees = s.zeroDegrees := rfl
@[simp] theorem beginTurn_btFound (x : Turn) (s : State) : (beginTurn x s).btFound = s.btFound := rfl
@[simp] theorem beginTurn_btPrescaler (x : Turn) (s : State) : (beginTurn x s).btPrescaler = s.btPrescaler := rfl
@[simp] theorem beginTurn_btSeg1 (x : Turn) (s : State) : (beginTurn x s).btSeg1 = s.btSeg1 := rfl
@[simp] theorem beginTurn_btSeg2 (x : Turn) (s : State) : (beginTurn x s).btSeg2 = s.btSeg2 := rfl
@[simp] theorem beginTurn_mb (x : Turn) (s : State) : (beginTurn x s).mb = s.mb := rfl
@[simp] theorem beginTurn_mbFull (x : Turn) (s : State) : (beginTurn x s).mbFull = s.mbFull := rfl
@[simp] theorem beginTurn_md (x : Turn) (s : State) : (beginTurn x s).md = s.md := rfl
@[simp] theorem beginTurn_mdHave (x : Turn) (s : State) : (beginTurn x s).mdHave = s.mdHave := rfl
@[simp] theorem beginTurn_ev (x : Turn) (s : State) : (beginTurn x s).ev = s.ev := rfl
@[simp] theorem beginTurn_steer (x : Turn) (s : State) : (beginTurn x s).steer = s.steer := rfl
@[simp] theorem beginTurn_cntLeft (x : Turn) (s : State) : (beginTurn x s).cntLeft = s.cntLeft := rfl
@[simp] theorem beginTurn_cntRight (x : Turn) (s : State) : (beginTurn x s).cntRight = s.cntRight := rfl
@[simp] theorem beginTurn_cntCenter (x : Turn) (s : State) : (beginTurn x s).cntCenter = s.cntCenter := rfl
@[simp] theorem beginTurn_resp (x : Turn) (s : State) : (beginTurn x s).resp = s.resp := rfl
@[simp] theorem beginTurn_agents (x : Turn) (s : State) : (beginTurn x s).agents = s.agents := rfl
@[simp] theorem beginTurn_sched (x : Turn) (s : State) : (beginTurn x s).sched = s.sched := rfl
@[simp] theorem beginTurn_expire (x : Turn) (s : State) : (beginTurn x s).expire = x.expire := rfl
@[simp] theorem beginTurn_started (x : Turn) (s : State) : (beginTurn x s).started = s.started := rfl
@[simp] theorem beginTurn_wrapped (x : Turn) (s : State) : (beginTurn x s).wrapped = s.wrapped := rfl
@[simp] theorem beginTurn_draws (x : Turn) (s : State) : (beginTurn x s).draws = s.draws := rfl

/-! `skipTurn` -/

@[simp] theorem skipTurn_cfg (s : State) : (skipTurn s).cfg = s.cfg := rfl
@[simp] theorem skipTurn_cnt (s : State) : (skipTurn s).cnt = s.cnt := rfl
@[simp] theorem skipTurn_ccrPeriod (s : State) : (skipTurn s).ccrPeriod = s.ccrPeriod := rfl
@[simp] theorem skipTurn_ccrPulse (s : State) : (skipTurn s).ccrPulse = s.ccrPulse := rfl
@[simp] theorem skipTurn_lvl (s : State) : (skipTurn s).lvl = s.lvl := rfl
@[simp] theorem skipTurn_armed (s : State) : (skipTurn s).armed = s.armed := rfl
@[simp] theorem skipTurn_periodTicks (s : State) : (skipTurn s).periodTicks = s.periodTicks := rfl
@[simp] theorem skipTurn_pulseTicks (s : State) : (skipTurn s).pulseTicks = s.pulseTicks := rfl
@[simp] theorem skipTurn_hasNew (s : State) : (skipTurn s).hasNew = s.hasNew := rfl
@[simp] theorem skipTurn_zeroInit (s : State) : (skipTurn s).zeroInit = s.zeroInit := rfl
@[simp] theorem skipTurn_zeroDegrees (s : State) : (skipTurn s).zeroDegrees = s.zeroDegrees := rfl
@[simp] theorem skipTurn_btFound (s : State) : (skipTurn s).btFound = s.btFound := rfl
@[simp] theorem skipTurn_btPrescaler (s : State) : (skipTurn s).btPrescaler = s.btPrescaler := rfl
@[simp] theorem skipTurn_btSeg1 (s : State) : (skipTurn s).btSeg1 = s.btSeg1 := rfl
@[simp] theorem skipTurn_btSeg2 (s : State) : (skipTurn s).btSeg2 = s.btSeg2 := rfl
@[simp] theorem skipTurn_mb (s : State) : (skipTurn s).mb = s.mb := rfl
@[simp] theorem skipTurn_mbFull (s : State) : (skipTurn s).mbFull = s.mbFull := rfl
@[simp] theorem skipTurn_md (s : State) : (skipTurn s).md = s.md := rfl
@[simp] theorem skipTurn_mdHave (s : State) : (skipTurn s).mdHave = s.mdHave := rfl
@[simp] theorem skipTurn_ev (s : State) : (skipTurn s).ev = s.ev := rfl
@[simp] theorem skipTurn_steer (s : State) : (skipTurn s).steer = s.steer := rfl
@[simp] theorem skipTurn_cntLeft (s : State) : (skipTurn s).cntLeft = s.cntLeft := rfl
@[simp] theorem skipTurn_cntRight (s : State) : (skipTurn s).cntRight = s.cntRight := rfl
@[simp] theorem skipTurn_cntCenter (s : State) : (skipTurn s).cntCenter = s.cntCenter := rfl
@[simp] theorem skipTurn_resp (s : State) : (skipTurn s).resp = s.resp := rfl
@[simp] theorem skipTurn_agents (s : State) : (skipTurn s).agents = s.agents := rfl
@[simp] theorem skipTurn_sched (s : State) : (skipTurn s).sched = s.sched.tail := rfl
@[simp] theorem skipTurn_expire (s : State) : (skipTurn s).expire = s.expire := rfl
@[simp] theorem skipTurn_started (s : State) : (skipTurn s).started = s.started := rfl
@[simp] theorem skipTurn_wrapped (s : State) : (skipTurn s).wrapped = s.wrapped := rfl
@[simp] theorem skipTurn_draws (s : State) : (skipTurn s).draws = s.draws := rfl

/-! `afterTurn` -/

@[simp] theorem afterTurn_cfg (k : Nat) (i : Instr) (s : State) : (afterTurn k i s).cfg = s.cfg := rfl
@[simp] theorem afterTurn_cnt (k : Nat) (i : Instr) (s : State) : (afterTurn k i s).cnt = s.cnt := rfl
@[simp] theorem afterTurn_ccrPeriod (k : Nat) (i : Instr) (s : State) : (afterTurn k i s).ccrPeriod = s.ccrPeriod := rfl
@[simp] theorem afterTurn_ccrPulse (k : Nat) (i : Instr) (s : State) : (afterTurn k i s).ccrPulse = s.ccrPulse := rfl
@[simp] theorem afterTurn_lvl (k : Nat) (i : Instr) (s : State) : (afterTurn k i s).lvl = s.lvl := rfl
@[simp] theorem afterTurn_armed (k : Nat) (i : Instr) (s : State) : (afterTurn k i s).armed = s.armed := rfl
@[simp] theorem afterTurn_periodTicks (k : Nat) (i : Instr) (s : State) : (afterTurn k i s).periodTicks = s.periodTicks := rfl
@[simp] theorem afterTurn_pulseTicks (k : Nat) (i : Instr) (s : State) : (afterTurn k i s).pulseTicks = s.pulseTicks := rfl
@[simp] theorem afterTurn_hasNew (k : Nat) (i : Instr) (s : State) : (afterTurn k i s).hasNew = s.hasNew := rfl
@[simp] theorem afterTurn_zeroInit (k : Nat) (i : Instr) (s : State) : (afterTurn k i s).zeroInit = s.zeroInit := rfl
@[simp] theorem afterTurn_zeroDegrees (k : Nat) (i : Instr) (s : State) : (afterTurn k i s).zeroDegrees = s.zeroDegrees := rfl
@[simp] theorem afterTurn_btFound (k : Nat) (i : Instr) (s : State) : (afterTurn k i s).btFound = s.btFound := rfl
@[simp] theorem afterTurn_btPrescaler (k : Nat) (i : Instr) (s : State) : (afterTurn k i s).btPrescaler = s.btPrescaler := rfl
@[simp] theorem afterTurn_btSeg1 (k : Nat) (i : Instr) (s : State) : (afterTurn k i s).btSeg1 = s.btSeg1 := rfl
@[simp] theorem afterTurn_btSeg2 (k : Nat) (i : Instr) (s : State) : (afterTurn k i s).btSeg2 = s.btSeg2 := rfl
@[simp] theorem afterTurn_mb (k : Nat) (i : Instr) (s : State) : (afterTurn k i s).mb = s.mb := rfl
@[simp] theorem afterTurn_mbFull (k : Nat) (i : Instr) (s : State) : (afterTurn k i s).mbFull = s.mbFull := rfl
@[simp] theorem afterTurn_md (k : Nat) (i : Instr) (s : State) : (afterTurn k i s).md = s.md := rfl
@[simp] theorem afterTurn_mdHave (k : Nat) (i : Instr) (s : State) : (afterTurn k i s).mdHave = s.mdHave := rfl
@[simp] theorem afterTurn_ev (k : Nat) (i : Instr) (s : State) : (afterTurn k i s).ev = s.ev := rfl
@[simp] theorem afterTurn_steer (k : Nat) (i : Instr) (s : State) : (afterTurn k i s).steer = s.steer := rfl
@[simp] theorem afterTurn_cntLeft (k : Nat) (i : Instr) (s : State) : (afterTurn k i s).cntLeft = s.cntLeft := rfl
@[simp] theorem afterTurn_cntRight (k : Nat) (i : Instr) (s : State) : (afterTurn k i s).cntRight = s.cntRight := rfl
@[simp] theorem afterTurn_cntCenter (k : Nat) (i : Instr) (s : State) : (afterTurn k i s).cntCenter = s.cntCenter := rfl
@[simp] theorem afterTurn_resp (k : Nat) (i : Instr) (s : State) : (afterTurn k i s).resp = s.resp := rfl
@[simp] theorem afterTurn_agents (k : Nat) (i : Instr) (s : State) :
    (afterTurn k i s).agents = if completed s.resp then answerRequest s.agents k i s else s.agents := rfl
@[simp] theorem afterTurn_sched (k : Nat) (i : Instr) (s : State) : (afterTurn k i s).sched = s.sched.tail := rfl
@[simp] theorem afterTurn_expire (k : Nat) (i : Instr) (s : State) : (afterTurn k i s).expire = s.expire := rfl
@[simp] theorem afterTurn_started (k : Nat) (i : Instr) (s : State) : (afterTurn k i s).started = s.started := rfl
@[simp] theorem afterTurn_wrapped (k : Nat) (i : Instr) (s : State) : (afterTurn k i s).wrapped = s.wrapped := rfl
@[simp] theorem afterTurn_draws (k : Nat) (i : Instr) (s : State) : (afterTurn k i s).draws = s.draws := rfl

/-! `notifyFrame` -/

@[simp] theorem notifyFrame_cfg (s : State) : (notifyFrame s).cfg = s.cfg := by unfold notifyFrame; split <;> rfl
@[simp] theorem notifyFrame_cnt (s : State) : (notifyFrame s).cnt = s.cnt := by unfold notifyFrame; split <;> rfl
@[simp] theorem notifyFrame_ccrPeriod (s : State) : (notifyFrame s).ccrPeriod = s.ccrPeriod := by unfold notifyFrame; split <;> rfl
@[simp] theorem notifyFrame_ccrPulse (s : State) : (notifyFrame s).ccrPulse = s.ccrPulse := by unfold notifyFrame; split <;> rfl
@[simp] theorem notifyFrame_lvl (s : State) : (notifyFrame s).lvl = s.lvl := by unfold notifyFrame; split <;> rfl
@[simp] theorem notifyFrame_armed (s : State) : (notifyFrame s).armed = s.armed := by unfold notifyFrame; split <;> rfl
@[simp] theorem notifyFrame_periodTicks (s : State) : (notifyFrame s).periodTicks = s.periodTicks := by unfold notifyFrame; split <;> rfl
@[simp] theorem notifyFrame_pulseTicks (s : State) : (notifyFrame s).pulseTicks = s.pulseTicks := by unfold notifyFrame; split <;> rfl
@[simp] theorem notifyFrame_hasNew (s : State) : (notifyFrame s).hasNew = s.hasNew := by unfold notifyFrame; split <;> rfl
@[simp] theorem notifyFrame_zeroInit (s : State) : (notifyFrame s).zeroInit = s.zeroInit := by unfold notifyFrame; split <;> rfl
@[simp] theorem notifyFrame_zeroDegrees (s : State) : (notifyFrame s).zeroDegrees = s.zeroDegrees := by unfold notifyFrame; split <;> rfl
@[simp] theorem notifyFrame_btFound (s : State) : (notifyFrame s).btFound = s.btFound := by unfold notifyFrame; split <;> rfl
@[simp] theorem notifyFrame_btPrescaler (s : State) : (notifyFrame s).btPrescaler = s.btPrescaler := by unfold notifyFrame; split <;> rfl
@[simp] theorem notifyFrame_btSeg1 (s : State) : (notifyFrame s).btSeg1 = s.btSeg1 := by unfold notifyFrame; split <;> rfl
@[simp] theorem notifyFrame_btSeg2 (s : State) : (notifyFrame s).btSeg2 = s.btSeg2 := by unfold notifyFrame; split <;> rfl
@[simp] theorem notifyFrame_mb (s : State) : (notifyFrame s).mb = s.mb := by unfold notifyFrame; split <;> rfl
@[simp] theorem notifyFrame_mbFull (s : State) : (notifyFrame s).mbFull = s.mbFull := by unfold notifyFrame; split <;> rfl
@[simp] theorem notifyFrame_md (s : State) : (notifyFrame s).md = s.md := by unfold notifyFrame; split <;> rfl
@[simp] theorem notifyFrame_mdHave (s : State) : (notifyFrame s).mdHave = s.mdHave := by unfold notifyFrame; split <;> rfl
@[simp] theorem notifyFrame_steer (s : State) : (notifyFrame s).steer = s.steer := by unfold notifyFrame; split <;> rfl
@[simp] theorem notifyFrame_cntLeft (s : State) : (notifyFrame s).cntLeft = s.cntLeft := by unfold notifyFrame; split <;> rfl
@[simp] theorem notifyFrame_cntRight (s : State) : (notifyFrame s).cntRight = s.cntRight := by unfold notifyFrame; split <;> rfl
@[simp] theorem notifyFrame_cntCenter (s : State) : (notifyFrame s).cntCenter = s.cntCenter := by unfold notifyFrame; split <;> rfl
@[simp] theorem notifyFrame_resp (s : State) : (notifyFrame s).resp = s.resp := by unfold notifyFrame; split <;> rfl
@[simp] theorem notifyFrame_agents (s : State) : (notifyFrame s).agents = s.agents := by unfold notifyFrame; split <;> rfl
@[simp] theorem notifyFrame_sched (s : State) : (notifyFrame s).sched = s.sched := by unfold notifyFrame; split <;> rfl
@[simp] theorem notifyFrame_expire (s : State) : (notifyFrame s).expire = s.expire := by unfold notifyFrame; split <;> rfl
@[simp] theorem notifyFrame_started (s : State) : (notifyFrame s).started = s.started := by unfold notifyFrame; split <;> rfl
@[simp] theorem notifyFrame_wrapped (s : State) : (notifyFrame s).wrapped = s.wrapped := by unfold notifyFrame; split <;> rfl
@[simp] theorem notifyFrame_draws (s : State) : (notifyFrame s).draws = s.draws := by unfold notifyFrame; split <;> rfl

/-! `unnotifyFrame` -/

@[simp] theorem unnotifyFrame_cfg (s : State) : (unnotifyFrame s).cfg = s.cfg := by unfold unnotifyFrame; split <;> rfl
@[simp] theorem unnotifyFrame_cnt (s : State) : (unnotifyFrame s).cnt = s.cnt := by unfold unnotifyFrame; split <;> rfl
@[simp] theorem unnotifyFrame_ccrPeriod (s : State) : (unnotifyFrame s).ccrPeriod = s.ccrPeriod := by unfold unnotifyFrame; split <;> rfl
@[simp] theorem unnotifyFrame_ccrPulse (s : State) : (unnotifyFrame s).ccrPulse = s.ccrPulse := by unfold unnotifyFrame; split <;> rfl
@[simp] theorem unnotifyFrame_lvl (s : State) : (unnotifyFrame s).lvl = s.lvl := by unfold unnotifyFrame; split <;> rfl
@[simp] theorem unnotifyFrame_armed (s : State) : (unnotifyFrame s).armed = s.armed := by unfold unnotifyFrame; split <;> rfl
@[simp] theorem unnotifyFrame_periodTicks (s : State) : (unnotifyFrame s).periodTicks = s.periodTicks := by unfold unnotifyFrame; split <;> rfl
@[simp] theorem unnotifyFrame_pulseTicks (s : State) : (unnotifyFrame s).pulseTicks = s.pulseTicks := by unfold unnotifyFrame; split <;> rfl
@[simp] theorem unnotifyFrame_hasNew (s : State) : (unnotifyFrame s).hasNew = s.hasNew := by unfold unnotifyFrame; split <;> rfl
@[simp] theorem unnotifyFrame_zeroInit (s : State) : (unnotifyFrame s).zeroInit = s.zeroInit := by unfold unnotifyFrame; split <;> rfl
@[simp] theorem unnotifyFrame_zeroDegrees (s : State) : (unnotifyFrame s).zeroDegrees = s.zeroDegrees := by unfold unnotifyFrame; split <;> rfl
@[simp] theorem unnotifyFrame_btFound (s : State) : (unnotifyFrame s).btFound = s.btFound := by unfold unnotifyFrame; split <;> rfl
@[simp] theorem unnotifyFrame_btPrescaler (s : State) : (unnotifyFrame s).btPrescaler = s.btPrescaler := by unfold unnotifyFrame; split <;> rfl
@[simp] theorem unnotifyFrame_btSeg1 (s : State) : (unnotifyFrame s).btSeg1 = s.btSeg1 := by unfold unnotifyFrame; split <;> rfl
@[simp] theorem unnotifyFrame_btSeg2 (s : State) : (unnotifyFrame s).btSeg2 = s.btSeg2 := by unfold unnotifyFrame; split <;> rfl
@[simp] theorem unnotifyFrame_mb (s : State) : (unnotifyFrame s).mb = s.mb := by unfold unnotifyFrame; split <;> rfl
@[simp] theorem unnotifyFrame_mbFull (s : State) : (unnotifyFrame s).mbFull = s.mbFull := by unfold unnotifyFrame; split <;> rfl
@[simp] theorem unnotifyFrame_md (s : State) : (unnotifyFrame s).md = s.md := by unfold unnotifyFrame; split <;> rfl
@[simp] theorem unnotifyFrame_mdHave (s : State) : (unnotifyFrame s).mdHave = s.mdHave := by unfold unnotifyFrame; split <;> rfl
@[simp] theorem unnotifyFrame_steer (s : State) : (unnotifyFrame s).steer = s.steer := by unfold unnotifyFrame; split <;> rfl
@[simp] theorem unnotifyFrame_cntLeft (s : State) : (unnotifyFrame s).cntLeft = s.cntLeft := by unfold unnotifyFrame; split <;> rfl
@[simp] theorem unnotifyFrame_cntRight (s : State) : (unnotifyFrame s).cntRight = s.cntRight := by unfold unnotifyFrame; split <;> rfl
@[simp] theorem unnotifyFrame_cntCenter (s : State) : (unnotifyFrame s).cntCenter = s.cntCenter := by unfold unnotifyFrame; split <;> rfl
@[simp] theorem unnotifyFrame_resp (s : State) : (unnotifyFrame s).resp = s.resp := by unfold unnotifyFrame; split <;> rfl
@[simp] theorem unnotifyFrame_agents (s : State) : (unnotifyFrame s).agents = s.agents := by unfold unnotifyFrame; split <;> rfl
@[simp] theorem unnotifyFrame_sched (s : State) : (unnotifyFrame s).sched = s.sched := by unfold unnotifyFrame; split <;> rfl
@[simp] theorem unnotifyFrame_expire (s : State) : (unnotifyFrame s).expire = s.expire := by unfold unnotifyFrame; split <;> rfl
@[simp] theorem unnotifyFrame_started (s : State) : (unnotifyFrame s).started = s.started := by unfold unnotifyFrame; split <;> rfl
@[simp] theorem unnotifyFrame_wrapped (s : State) : (unnotifyFrame s).wrapped = s.wrapped := by unfold unnotifyFrame; split <;> rfl
@[simp] theorem unnotifyFrame_draws (s : State) : (unnotifyFrame s).draws = s.draws := by unfold unnotifyFrame; split <;> rfl

/-! `drainMailbox` -/

@[simp] theorem drainMailbox_cfg (s : State) : (drainMailbox s).cfg = s.cfg := by simp [drainMailbox]
@[simp] theorem drainMailbox_cnt (s : State) : (drainMailbox s).cnt = s.cnt := by simp [drainMailbox]
@[simp] theorem drainMailbox_ccrPeriod (s : State) : (drainMailbox s).ccrPeriod = s.ccrPeriod := by simp [drainMailbox]
@[simp] theorem drainMailbox_ccrPulse (s : State) : (drainMailbox s).ccrPulse = s.ccrPulse := by simp [drainMailbox]
@[simp] theorem drainMailbox_lvl (s : State) : (drainMailbox s).lvl = s.lvl := by simp [drainMailbox]
@[simp] theorem drainMailbox_armed (s : State) : (drainMailbox s).armed = s.armed := by simp [drainMailbox]
@[simp] theorem drainMailbox_periodTicks (s : State) : (drainMailbox s).periodTicks = s.periodTicks := by simp [drainMailbox]
@[simp] theorem drainMailbox_pulseTicks (s : State) : (drainMailbox s).pulseTicks = s.pulseTicks := by simp [drainMailbox]
@[simp] theorem drainMailbox_hasNew (s : State) : (drainMailbox s).hasNew = s.hasNew := by simp [drainMailbox]
@[simp] theorem drainMailbox_zeroInit (s : State) : (drainMailbox s).zeroInit = s.zeroInit := by simp [drainMailbox]
@[simp] theorem drainMailbox_zeroDegrees (s : State) : (drainMailbox s).zeroDegrees = s.zeroDegrees := by simp [drainMailbox]
@[simp] theorem drainMailbox_btFound (s : State) : (drainMailbox s).btFound = s.btFound := by simp [drainMailbox]
@[simp] theorem drainMailbox_btPrescaler (s : State) : (drainMailbox s).btPrescaler = s.btPrescaler := by simp [drainMailbox]
@[simp] theorem drainMailbox_btSeg1 (s : State) : (drainMailbox s).btSeg1 = s.btSeg1 := by simp [drainMailbox]
@[simp] theorem drainMailbox_btSeg2 (s : State) : (drainMailbox s).btSeg2 = s.btSeg2 := by simp [drainMailbox]
@[simp] theorem drainMailbox_mb (s : State) : (drainMailbox s).mb = s.mb := by simp [drainMailbox]
@[simp] theorem drainMailbox_mbFull (s : State) : (drainMailbox s).mbFull = false := by simp [drainMailbox]
@[simp] theorem drainMailbox_md (s : State) : (drainMailbox s).md = s.md := by simp [drainMailbox]
@[simp] theorem drainMailbox_mdHave (s : State) : (drainMailbox s).mdHave = s.mdHave := by simp [drainMailbox]
@[simp] theorem drainMailbox_steer (s : State) : (drainMailbox s).steer = s.steer := by simp [drainMailbox]
@[simp] theorem drainMailbox_cntLeft (s : State) : (drainMailbox s).cntLeft = s.cntLeft := by simp [drainMailbox]
@[simp] theorem drainMailbox_cntRight (s : State) : (drainMailbox s).cntRight = s.cntRight := by simp [drainMailbox]
@[simp] theorem drainMailbox_cntCenter (s : State) : (drainMailbox s).cntCenter = s.cntCenter := by simp [drainMailbox]
@[simp] theorem drainMailbox_resp (s : State) : (drainMailbox s).resp = s.resp := by simp [drainMailbox]
@[simp] theorem drainMailbox_agents (s : State) : (drainMailbox s).agents = s.agents := by simp [drainMailbox]
@[simp] theorem drainMailbox_sched (s : State) : (drainMailbox s).sched = s.sched := by simp [drainMailbox]
@[simp] theorem drainMailbox_expire (s : State) : (drainMailbox s).expire = s.expire := by simp [drainMailbox]
@[simp] theorem drainMailbox_started (s : State) : (drainMailbox s).started = s.started := by simp [drainMailbox]
@[simp] theorem drainMailbox_wrapped (s : State) : (drainMailbox s).wrapped = s.wrapped := by simp [drainMailbox]
@[simp] theorem drainMailbox_draws (s : State) : (drainMailbox s).draws = s.draws := by simp [drainMailbox]

/-! `maintainMode` -/

@[simp] theorem maintainMode_cfg (s : State) (d : Byte) : (maintainMode s d).cfg = s.cfg := by unfold maintainMode; split <;> rfl
@[simp] theorem maintainMode_cnt (s : State) (d : Byte) : (maintainMode s d).cnt = s.cnt := by unfold maintainMode; split <;> rfl
@[simp] theorem maintainMode_ccrPeriod (s : State) (d : Byte) : (maintainMode s d).ccrPeriod = s.ccrPeriod := by unfold maintainMode; split <;> rfl
@[simp] theorem maintainMode_ccrPulse (s : State) (d : Byte) : (maintainMode s d).ccrPulse = s.ccrPulse := by unfold maintainMode; split <;> rfl
@[simp] theorem maintainMode_lvl (s : State) (d : Byte) : (maintainMode s d).lvl = s.lvl := by unfold maintainMode; split <;> rfl
@[simp] theorem maintainMode_armed (s : State) (d : Byte) : (maintainMode s d).armed = s.armed := by unfold maintainMode; split <;> rfl
@[simp] theorem maintainMode_periodTicks (s : State) (d : Byte) : (maintainMode s d).periodTicks = s.periodTicks := by unfold maintainMode; split <;> rfl
@[simp] theorem maintainMode_pulseTicks (s : State) (d : Byte) : (maintainMode s d).pulseTicks = s.pulseTicks := by unfold maintainMode; split <;> rfl
@[simp] theorem maintainMode_hasNew (s : State) (d : Byte) : (maintainMode s d).hasNew = s.hasNew := by unfold maintainMode; split <;> rfl
@[simp] theorem maintainMode_zeroInit (s : State) (d : Byte) : (maintainMode s d).zeroInit = s.zeroInit := by unfold maintainMode; split <;> rfl
@[simp] theorem maintainMode_zeroDegrees (s : State) (d : Byte) : (maintainMode s d).zeroDegrees = s.zeroDegrees := by unfold maintainMode; split <;> rfl
@[simp] theorem maintainMode_btFound (s : State) (d : Byte) : (maintainMode s d).btFound = s.btFound := by unfold maintainMode; split <;> rfl
@[simp] theorem maintainMode_btPrescaler (s : State) (d : Byte) : (maintainMode s d).btPrescaler = s.btPrescaler := by unfold maintainMode; split <;> rfl
@[simp] theorem maintainMode_btSeg1 (s : State) (d : Byte) : (maintainMode s d).btSeg1 = s.btSeg1 := by unfold maintainMode; split <;> rfl
@[simp] theorem maintainMode_btSeg2 (s : State) (d : Byte) : (maintainMode s d).btSeg2 = s.btSeg2 := by unfold maintainMode; split <;> rfl
@[simp] theorem maintainMode_mb (s : State) (d : Byte) : (maintainMode s d).mb = s.mb := by unfold maintainMode; split <;> rfl
@[simp] theorem maintainMode_mbFull (s : State) (d : Byte) : (maintainMode s d).mbFull = s.mbFull := by unfold maintainMode; split <;> rfl
@[simp] theorem maintainMode_md (s : State) (d : Byte) : (maintainMode s d).md = s.md := by unfold maintainMode; split <;> rfl
@[simp] theorem maintainMode_mdHave (s : State) (d : Byte) : (maintainMode s d).mdHave = s.mdHave := by unfold maintainMode; split <;> rfl
@[simp] theorem maintainMode_steer (s : State) (d : Byte) : (maintainMode s d).steer = s.steer := by unfold maintainMode; split <;> rfl
@[simp] theorem maintainMode_cntLeft (s : State) (d : Byte) : (maintainMode s d).cntLeft = s.cntLeft := by unfold maintainMode; split <;> rfl
@[simp] theorem maintainMode_cntRight (s : State) (d : Byte) : (maintainMode s d).cntRight = s.cntRight := by unfold maintainMode; split <;> rfl
@[simp] theorem maintainMode_cntCenter (s : State) (d : Byte) : (maintainMode s d).cntCenter = s.cntCenter := by unfold maintainMode; split <;> rfl
@[simp] theorem maintainMode_resp (s : State) (d : Byte) : (maintainMode s d).resp = s.resp := by unfold maintainMode; split <;> rfl
@[simp] theorem maintainMode_agents (s : State) (d : Byte) : (maintainMode s d).agents = s.agents := by unfold maintainMode; split <;> rfl
@[simp] theorem maintainMode_sched (s : State) (d : Byte) : (maintainMode s d).sched = s.sched := by unfold maintainMode; split <;> rfl
@[simp] theorem maintainMode_expire (s : State) (d : Byte) : (maintainMode s d).expire = s.expire := by unfold maintainMode; split <;> rfl
@[simp] theorem maintainMode_started (s : State) (d : Byte) : (maintainMode s d).started = s.started := by unfold maintainMode; split <;> rfl
@[simp] theorem maintainMode_wrapped (s : State) (d : Byte) : (maintainMode s d).wrapped = s.wrapped := by unfold maintainMode; split <;> rfl
@[simp] theorem maintainMode_draws (s : State) (d : Byte) : (maintainMode s d).draws = s.draws := by unfold maintainMode; split <;> rfl

end Sys2Proof.Machine
end

