-- ==== Sys2Proof/Laws/Ops.lean ====
section
/-! SUPPORT. What each shared operation does, said once. -/

namespace Sys2Proof.Machine

open Sys2Proof

/-! Answers -/

theorem respond_eq_next {s t : State} {r : Response} : respond s r = .next t ↔ t = { s with resp := r } := by
  unfold respond
  constructor
  · intro h; injection h with h; exact h.symm
  · rintro rfl; rfl

theorem waitOrExpire_expired {s : State} {r : Response} (h : s.expire = true) :
    waitOrExpire s true r = .next { s with resp := r } := by
  simp [waitOrExpire, respond, h]

theorem waitOrExpire_waits {s : State} {finite : Bool} {r : Response} (h : (finite && s.expire) = false) :
    waitOrExpire s finite r = .next { s with resp := .waiting } := by
  simp [waitOrExpire, respond, h]

/-- A wait changes nothing but the response. -/
theorem waitOrExpire_next {s t : State} {finite : Bool} {r : Response}
    (h : waitOrExpire s finite r = .next t) : t = { s with resp := t.resp } ∧ (t.resp = r ∨ t.resp = .waiting) := by
  unfold waitOrExpire at h
  split at h
  · obtain rfl := respond_eq_next.mp h
    exact ⟨rfl, .inl rfl⟩
  · obtain rfl := respond_eq_next.mp h
    exact ⟨rfl, .inr rfl⟩

/-! Payloads -/

theorem memWriteAll_eq (p data : Payload) : memWriteAll p data = data := by
  apply Vector.ext
  intro i hi
  simp only [memWriteAll, memWrite, memRead, List.finRange_succ, List.finRange_zero, List.map_nil,
    List.map_cons, List.foldl_cons, List.foldl_nil]
  interval_cases i <;> simp

theorem storeFrame_eq (old new : Frame) : storeFrame old new = new := by
  simp [storeFrame, memWriteAll_eq]

/-! The event-flag register -/

theorem readEv_writeEv (s : State) (v : Byte) : readEv (writeEv s v) = v &&& evValid := by
  simp [readEv, BitVec.and_assoc]

theorem readEv_valid (s : State) : readEv s &&& evValid = readEv s := by
  simp [readEv, BitVec.and_assoc]

theorem readEv_setFlags (s : State) (m : Byte) : readEv (setFlags s m) = readEv s ||| (m &&& evValid) := by
  rw [setFlags, readEv_writeEv]
  ext i hi
  simp only [readEv, BitVec.getElem_and, BitVec.getElem_or]
  cases s.ev[i] <;> cases m[i] <;> cases evValid[i] <;> rfl

theorem readEv_clearFlags (s : State) (m : Byte) : readEv (clearFlags s m) = readEv s &&& ~~~m := by
  rw [clearFlags, readEv_writeEv]
  ext i hi
  simp only [readEv, BitVec.getElem_and, BitVec.getElem_not]
  cases s.ev[i] <;> cases m[i] <;> cases evValid[i] <;> rfl

/-- `ev` reads the same after an update of any other element. -/
theorem readEv_congr {s t : State} (h : t.ev = s.ev) : readEv t = readEv s := by simp [readEv, h]

theorem readEv_maintainMode (s : State) (d : Byte) (hd : d &&& modeMask = d) :
    readEv (maintainMode s d) = (readEv s &&& ~~~modeMask) ||| d := by
  unfold maintainMode
  split
  · rename_i h
    rw [← h]
    ext i hi
    simp only [BitVec.getElem_or, BitVec.getElem_and, BitVec.getElem_not]
    cases (readEv s)[i] <;> cases modeMask[i] <;> rfl
  · rw [readEv_writeEv]
    have hv : modeMask &&& evValid = modeMask := by decide
    have hd' : d &&& evValid = d := by rw [← hd, BitVec.and_assoc, hv]
    ext i hi
    have e := congrArg (fun v : Byte => v[i]) hd'
    simp only [BitVec.getElem_and] at e
    simp only [readEv, BitVec.getElem_or, BitVec.getElem_and, BitVec.getElem_not] at e ⊢
    revert e
    cases s.ev[i] <;> cases modeMask[i] <;> cases evValid[i] <;> cases d[i] <;> simp

theorem readEv_notifyFrame (s : State) :
    readEv (notifyFrame s) = if s.cfg.frameNotify then readEv s ||| frameReceived else readEv s := by
  unfold notifyFrame
  split
  · rw [readEv_setFlags]; rfl
  · rfl

theorem readEv_drainMailbox (s : State) :
    readEv (drainMailbox s) = if s.cfg.frameNotify then readEv s &&& ~~~frameReceived else readEv s := by
  unfold drainMailbox unnotifyFrame
  split
  · rw [readEv_clearFlags]; rfl
  · rfl

theorem desiredFlags_mode (m : CanMode) : desiredFlags m &&& modeMask = desiredFlags m := by
  cases m <;> decide

/-! Ticks -/

theorem truncTicks_lt {cfg : Config} (h : cfg.cntW ≤ 32) (v : U32) : (truncTicks cfg v).toNat < 2 ^ cfg.cntW := by
  have h1 : 2 ^ cfg.cntW ≤ 2 ^ 32 := Nat.pow_le_pow_right (by omega) h
  have h2 : v.toNat % 2 ^ cfg.cntW < 2 ^ cfg.cntW := Nat.mod_lt _ (by positivity)
  simp only [truncTicks, BitVec.toNat_ofNat]
  rw [Nat.mod_eq_of_lt (by omega)]
  exact h2

theorem nextCount_toNat {cfg : Config} (h : cfg.cntW ≤ 32) (v : U32) :
    (nextCount cfg v).toNat = (v.toNat + 1) % 2 ^ cfg.cntW := by
  have h1 : 2 ^ cfg.cntW ≤ 2 ^ 32 := Nat.pow_le_pow_right (by omega) h
  have h2 : (v.toNat + 1) % 2 ^ cfg.cntW < 2 ^ cfg.cntW := Nat.mod_lt _ (by positivity)
  simp only [nextCount, BitVec.toNat_ofNat]
  rw [Nat.mod_eq_of_lt (by omega)]

/-! The tests of an angle operand, in either number domain -/

theorem turnsLeft_iff {cfg : Config} {a : AnglePort} : turnsLeft cfg a = true ↔
    (∃ q, angleValue a = .fin q ∧ cfg.thTurn ≤ q) ∨ angleValue a = .inf false := by
  unfold turnsLeft
  cases angleValue a <;> simp [numGe]

theorem turnsRight_iff {cfg : Config} {a : AnglePort} : turnsRight cfg a = true ↔
    (∃ q, angleValue a = .fin q ∧ q ≤ -cfg.thTurn) ∨ angleValue a = .inf true := by
  unfold turnsRight
  cases angleValue a <;> simp [numLe]

theorem nearCenter_iff {cfg : Config} {a : AnglePort} : nearCenter cfg a = true ↔
    ∃ q, angleValue a = .fin q ∧ -cfg.thCenter ≤ q ∧ q ≤ cfg.thCenter := by
  unfold nearCenter
  cases angleValue a <;> simp [numGe, numLe]

/-! The step -/

theorem runTurn_next {turn : Turn} {i : Instr} {s u : State} :
    runTurn turn i s = .next u ↔ ∃ t, exec i (beginTurn turn s) = .next t ∧ u = afterTurn turn.agent i t := by
  unfold runTurn
  cases exec i (beginTurn turn s) <;> simp [eq_comm]

theorem runTurn_fault {turn : Turn} {i : Instr} {s : State} {e : Fault} :
    runTurn turn i s = .fault e ↔ exec i (beginTurn turn s) = .fault e := by
  unfold runTurn
  cases exec i (beginTurn turn s) <;> simp

theorem runTurn_refused {turn : Turn} {i : Instr} {s : State} {e : Refusal} :
    runTurn turn i s = .refused e ↔ exec i (beginTurn turn s) = .refused e := by
  unfold runTurn
  cases exec i (beginTurn turn s) <;> simp

/-- Everything a step can do when it answers a next state: an idle turn, or one admitted operation. -/
theorem step_next_cases {s u : State} (h : step s = .next u) :
    (nextRequest s = none ∧ u = skipTurn s) ∨
    ∃ turn r i t, nextRequest s = some (turn, r) ∧ acceptRequest s r = .ok i
      ∧ exec i (beginTurn turn s) = .next t ∧ u = afterTurn turn.agent i t := by
  unfold step at h
  split at h
  · rename_i hn
    injection h with h
    exact .inl ⟨hn, h.symm⟩
  · rename_i turn r hn
    split at h
    · cases h
    · rename_i i ha
      obtain ⟨t, ht, hu⟩ := runTurn_next.mp h
      exact .inr ⟨turn, r, i, t, hn, ha, ht, hu⟩

/-- A step faults only where the operation it runs faults. -/
theorem step_fault_cases {s : State} {e : Fault} (h : step s = .fault e) :
    ∃ turn r i, nextRequest s = some (turn, r) ∧ acceptRequest s r = .ok i
      ∧ exec i (beginTurn turn s) = .fault e := by
  unfold step at h
  split at h
  · cases h
  · rename_i turn r hn
    split at h
    · cases h
    · rename_i i ha
      exact ⟨turn, r, i, hn, ha, runTurn_fault.mp h⟩

/-- An admitted request decodes to the operation, from an allowed context, after the first `RESET`. -/
theorem acceptRequest_ok {s : State} {r : Request} {i : Instr} (h : acceptRequest s r = .ok i) :
    decode s.cfg.num r.word r.side = .ok i ∧ allowed r.ctx i = true ∧ (s.started = true ∨ isReset i = true) := by
  unfold acceptRequest at h
  split at h
  · cases h
  · rename_i j hd
    split at h
    · cases h
    · split at h
      · cases h
      · rename_i h1 h2
        injection h with h
        subst h
        refine ⟨hd, by simpa using h1, ?_⟩
        cases hs : s.started <;> cases hr : isReset j <;> simp_all

/-- The step on a request that decodes: the context is tested first, then the power-up state, then the
operation runs (30_encoding.md R110; 60_exceptions.md R326; 70_reset_and_hazards.md R350; log entry 25). -/
theorem step_of_decode {s : State} {turn : Turn} {r : Request} {i : Instr}
    (hn : nextRequest s = some (turn, r)) (hd : decode s.cfg.num r.word r.side = .ok i) :
    step s = if allowed r.ctx i = false then .refused .contextForbidden
      else if s.started = false && !isReset i then .refused .beforeReset
      else runTurn turn i s := by
  simp only [step, hn, acceptRequest, hd]
  by_cases h1 : allowed r.ctx i = false
  · rw [if_pos h1, if_pos h1]
  · rw [if_neg h1, if_neg h1]
    by_cases h2 : (s.started = false && !isReset i) = true
    · rw [if_pos h2, if_pos h2]
    · rw [if_neg h2, if_neg h2]

/-! The agents -/

/-- Whoever follows the table of agents is never refused for the context (60_exceptions.md R326, R330). -/
theorem issues_allowed {role : Role} {ctx : Context} {i : Instr} (h : issues role ctx i = true) :
    allowed ctx i = true := by
  cases i <;> simp [issues] at h <;> cases ctx <;> simp_all [allowed]

/-- What a response leads an agent to issue (60_exceptions.md R330): one `FSM_SAMPLE` after the angle task's `GET_ANGLE`, one
`MD_APPLY` after the decoder task's `MD_FETCH`, or nothing. -/
theorem followUp_cases (role : Role) (i : Instr) (t : State) :
    followUp role i t = []
    ∨ (role = .angleTask ∧ i = .getAngle ∧ ∃ valid x, angleFits t.cfg.num x = true
      ∧ followUp role i t = [requestOf .task (.fsmSample valid x)])
    ∨ (role = .decoderTask ∧ (∃ finite, i = .mdFetch finite)
      ∧ followUp role i t = [requestOf .task .mdApply]) := by
  unfold followUp
  split
  · unfold fsmPollRest
    split
    · exact .inr (.inl ⟨rfl, rfl, _, _, by cases t.cfg.num <;> rfl, rfl⟩)
    · exact .inr (.inl ⟨rfl, rfl, _, _, by cases t.cfg.num <;> rfl, rfl⟩)
    all_goals exact .inl rfl
  · unfold mdStepRest
    split
    · exact .inr (.inr ⟨rfl, ⟨_, rfl⟩, rfl⟩)
    all_goals exact .inl rfl
  · exact .inl rfl

end Sys2Proof.Machine
end

