-- ==== Sys2Proof/Laws/PerInstr.lean ====
section
/-! SUPPORT. Laws said of each operation in turn: the word of an operation carries its selector
(30_encoding.md R90, R104). -/

namespace Sys2Proof.Laws

/-- The encoder puts the selector of R104 in bits 4:0. -/
def NamesItsSelector.Statement (i : Instr) : Prop := selector (encode i) = selectorOf i

theorem NamesItsSelector.idle : NamesItsSelector.Statement .idle := rfl
theorem NamesItsSelector.reset : NamesItsSelector.Statement .reset := rfl
theorem NamesItsSelector.tick : NamesItsSelector.Statement .tick := rfl
theorem NamesItsSelector.rise : NamesItsSelector.Statement .rise := rfl
theorem NamesItsSelector.fall : NamesItsSelector.Statement .fall := rfl
theorem NamesItsSelector.capture (period pulse : U32) : NamesItsSelector.Statement (.capture period pulse) :=
  (formatC_fields _ _ _).1
theorem NamesItsSelector.getAngle : NamesItsSelector.Statement .getAngle := rfl
theorem NamesItsSelector.btSynth (clockHz bitrateBps : U32) :
    NamesItsSelector.Statement (.btSynth clockHz bitrateBps) := (formatC_fields _ _ _).1
theorem NamesItsSelector.rxFrame (frame : Frame) : NamesItsSelector.Statement (.rxFrame frame) := by
  rw [NamesItsSelector.Statement, encode, formatF_setWidth]
  exact (formatF_fields _ _ _).2.1
theorem NamesItsSelector.recvNb : NamesItsSelector.Statement .recvNb := rfl
theorem NamesItsSelector.recvBlk (finite : Bool) : NamesItsSelector.Statement (.recvBlk finite) :=
  (formatT_fields _ _).1
theorem NamesItsSelector.mdFetch (finite : Bool) : NamesItsSelector.Statement (.mdFetch finite) :=
  (formatT_fields _ _).1
theorem NamesItsSelector.mdApply : NamesItsSelector.Statement .mdApply := rfl
theorem NamesItsSelector.evSet (mask : Byte) : NamesItsSelector.Statement (.evSet mask) :=
  (formatM_fields _ _ _ _).1
theorem NamesItsSelector.evClear (mask : Byte) : NamesItsSelector.Statement (.evClear mask) :=
  (formatM_fields _ _ _ _).1
theorem NamesItsSelector.evWait (mask : Byte) (clearOnExit finite : Bool) :
    NamesItsSelector.Statement (.evWait mask clearOnExit finite) := (formatM_fields _ _ _ _).1
theorem NamesItsSelector.fsmSample (valid : Bool) (angle : AnglePort) :
    NamesItsSelector.Statement (.fsmSample valid angle) := by
  cases angle
  · exact (formatT_fields _ _).1
  · exact (formatS32_fields _ _ _).1
theorem NamesItsSelector.canSend (frame : Frame) (txFree : Bool) :
    NamesItsSelector.Statement (.canSend frame txFree) := (formatF_fields _ _ _).2.1

end Sys2Proof.Laws
end

