-- ==== Sys2Proof/Tests/Slice0.lean ====
section
/-! SUPPORT. Tests. Every expected value is one of spec/95_test_vectors.md, whose row is named, or follows from
the rule named. The theorems `witness_<Name>` meet the hypotheses of the statement of that name. -/

namespace Sys2Proof.Tests

open Sys2Proof Sys2Proof.Machine

/-! ## Helpers -/

/-- The answer is a next state that satisfies `p`. -/
def nextIs (a : Answer) (p : State → Bool) : Bool :=
  match a with
  | .next t => p t
  | .fault _ => false
  | .refused _ => false

/-- A standard data frame with `id` 0x123 and the payload AA BB m of Program 2. -/
def frameOf (m : Byte) (len : BitVec 4) : Frame :=
  { id := 0x123, ext := false, rtr := false, len := len, data := #v[0xAA, 0xBB, m, 0, 0, 0, 0, 0] }

/-- A remote frame of length 0 (95 2.4 X7). -/
def remoteFrame : Frame := { id := 0x7FF, ext := false, rtr := true, len := 0, data := #v[0, 0, 0, 0, 0, 0, 0, 0] }

/-- Another counter width and number domain. -/
def cfgWith (w : Nat) (dom : NumDomain) : Config := { Config.default with cntW := w, num := dom }

/-- State F2 of 95 2.1 with one more tick. -/
def armedState : State :=
  { State.reset with cnt := 16, ccrPulse := 15, lvl := .low, armed := true }

/-- A pair waits in the capture cell. -/
def paired (dom : NumDomain) (period pulse : U32) : State :=
  { State.reset with cfg := cfgWith 32 dom, periodTicks := period, pulseTicks := pulse, hasNew := true }

/-- The same with a zero reference. -/
def zeroed (dom : NumDomain) (period pulse : U32) (zero : Rat) : State :=
  { paired dom period pulse with zeroInit := true, zeroDegrees := zero }

/-- A frame waits in the mailbox. -/
def filled (f : Frame) : State := { State.reset with mb := f, mbFull := true, ev := 0x40 }

/-- A frame is latched. -/
def latched (f : Frame) (ev : Byte) : State := { State.reset with md := f, mdHave := true, ev := ev }

/-- One agent with one request, chosen next. -/
def oneRequest (s : State) (ctx : Context) (word : Word) : State :=
  { s with agents := [{ role := roleFor (selector word), requests := [{ ctx := ctx, word := word, side := 0 }] }]
           sched := [{ agent := 0, expire := false }] }

/-! ## WellFormed refuses ill-formed terms -/

theorem test_wellFormed_refuses_length_9 : WellFormed .rational (.rxFrame (frameOf 0 9)) = false := by decide
theorem test_wellFormed_refuses_length_15 : WellFormed .binary32 (.rxFrame (frameOf 0 15)) = false := by decide
theorem test_wellFormed_refuses_pattern_in_rational :
    WellFormed .rational (.fsmSample true (.binary32 0)) = false := by decide
theorem test_wellFormed_refuses_rational_in_binary32 :
    WellFormed .binary32 (.fsmSample true (.rational 0)) = false := by decide

/-! ## Decoding, words of 95 section 2 -/

theorem test_decode_format_n :
    [0x00, 0x01, 0x02, 0x03, 0x04, 0x06, 0x09, 0x0c].map (fun w => decodeTableWord 5 w)
      = [some .idle, some .reset, some .tick, some .rise, some .fall, some .getAngle, some .recvNb,
         some .mdApply] := by decide +kernel
theorem test_decode_capture :
    decode .rational 0x400000008005 0 = .ok (.capture 1024 512)
    ∧ decode .rational 0x1fffffffffffffffe5 0 = .ok (.capture 0xFFFFFFFF 0xFFFFFFFF) := by decide +kernel
theorem test_decode_btSynth :
    decode .rational 0x1e8480044aa2007 0 = .ok (.btSynth 36000000 1000000) := by decide +kernel
theorem test_decode_rxFrame :
    decode .rational 0x15dd540000002468 0 = .ok (.rxFrame (frameOf 0x02 8))
    ∧ decode .rational 0x400000ffe8 0 = .ok (.rxFrame remoteFrame) := by decide +kernel
theorem test_decode_format_t :
    decode .rational 0x0a 0 = .ok (.recvBlk false) ∧ decode .rational 0x2a 0 = .ok (.recvBlk true)
    ∧ decode .rational 0x0b 0 = .ok (.mdFetch false) ∧ decode .rational 0x2b 0 = .ok (.mdFetch true) := by
  decide +kernel
theorem test_decode_format_m :
    decode .rational 0x1fed 0 = .ok (.evSet 0xFF) ∧ decode .rational 0x102e 0 = .ok (.evClear 0x81)
    ∧ decode .rational 0x40ef 0 = .ok (.evWait 0x07 false true)
    ∧ decode .rational 0x202f 0 = .ok (.evWait 0x01 true false) := by decide +kernel
theorem test_decode_fsmSample :
    decode .rational 0x10 0 = .ok (.fsmSample false (.rational 0))
    ∧ decode .rational 0x30 (-90) = .ok (.fsmSample true (.rational (-90)))
    ∧ decode .binary32 0x30afd00030 0 = .ok (.fsmSample true (.binary32 0xC2BF4000)) := by decide +kernel
theorem test_decode_canSend :
    decode .rational 0x800000000000110890000006431 0
      = .ok (.canSend { id := 0x321, ext := false, rtr := false, len := 2,
                        data := #v[0x11, 0x22, 0, 0, 0, 0, 0, 0] } true)
    ∧ decode .rational 0x110890000006431 0
      = .ok (.canSend { id := 0x321, ext := false, rtr := false, len := 2,
                        data := #v[0x11, 0x22, 0, 0, 0, 0, 0, 0] } false) := by decide +kernel
/-- 95 2.8: 0x1F and 0x32 are refused; so is `RX_FRAME` with `len` 9 (30_encoding.md R111). -/
theorem test_decode_refuses :
    decodeTableWord 5 0x1F = none ∧ decodeTableWord 6 0x32 = none
    ∧ decodeTableWord 107 (0x08 + 9 * 2 ^ 39) = none := by decide +kernel
/-- The encoder gives the words of 95 back. -/
theorem test_encode_words :
    encode (.capture 1000 250) = 0x1f4000007d05 ∧ encode (.rxFrame (frameOf 0x00 8)) = 0x5dd540000002468
    ∧ encode (.evWait 0x06 true true) = 0x60cf ∧ encode (.fsmSample true (.binary32 0x411D8000)) = 0x1047600030
    ∧ encode (.canSend { id := 0x321, ext := false, rtr := false, len := 9,
                         data := #v[0, 0, 0, 0, 0, 0, 0, 0] } true) = 0x800000000000000048000006431 := by
  decide +kernel

/-! ## One operation at a time -/

theorem test_reset_start_state : nextIs (exec .reset armedState) (fun t =>
    t.cnt = 0 && t.lvl = .unknown && t.armed = false && t.ev = 0 && t.steer = .center) = true := by decide
/-- 95 2.1 F12, with `CNT_W = 4`. -/
theorem test_tick_wraps : nextIs (exec .tick { State.reset with cfg := cfgWith 4 .rational, cnt := 15 })
    (fun t => t.cnt = 0) = true := by decide +kernel
/-- 95 2.1 F3. -/
theorem test_rise_captures : nextIs (exec .rise armedState) (fun t =>
    t.cnt = 0 && t.ccrPeriod = 16 && t.periodTicks = 16 && t.pulseTicks = 15 && t.hasNew) = true := by decide
/-- 95 2.1 F5: the first rising edge after a falling first edge writes no capture. -/
theorem test_rise_arms : nextIs (exec .rise { State.reset with cnt := 3, lvl := .low }) (fun t =>
    t.ccrPeriod = 3 && t.armed && !t.hasNew) = true := by decide
/-- 95 2.1 F4. -/
theorem test_fall_first_edge : nextIs (exec .fall State.reset) (fun t =>
    t.ccrPulse = 0 && t.lvl = .low && !t.armed && !t.hasNew) = true := by decide
/-- 95 2.1 F11. -/
theorem test_capture_newest_wins : nextIs (exec (.capture 1024 512) (paired .rational 1024 256)) (fun t =>
    t.periodTicks = 1024 && t.pulseTicks = 512 && t.hasNew) = true := by decide
/-- 95 2.2 A11, both domains: -90.36 and 0xC2B4B850. -/
theorem test_getAngle_a11 :
    nextIs (exec .getAngle (zeroed .rational 1000 999 90)) (fun t => t.resp = .angle (some (-2259 / 25)))
    && nextIs (exec .getAngle (zeroed .binary32 1000 999 90)) (fun t =>
      responseWord .binary32 0 t.resp = some (33, 0xC2B4B850 * 2 + 1)) = true := by decide +kernel
/-- 95 2.2, binary32 departures: `2^25, 2^25 - 1` gives absolute 0. -/
theorem test_getAngle_b32_zero : nextIs (exec .getAngle (paired .binary32 33554432 33554431)) (fun t =>
    t.zeroInit && t.zeroDegrees = 0 && !t.hasNew && t.resp = .angle none) = true := by decide +kernel
/-- 95 2.3 T2: the larger `TQ` wins; response word 0x41e00000005. -/
theorem test_btSynth_t2 : nextIs (exec (.btSynth 36000000 1000000) State.reset) (fun t =>
    t.btFound && t.btPrescaler = 2 && t.btSeg1 = 15 && t.btSeg2 = 2
      && responseWord .rational 0 t.resp = some (49, 0x41e00000005)) = true := by decide +kernel
/-- 95 2.3 T11 and T27: the tie within one `TQ`, and a product above 32 bits. -/
theorem test_btSynth_t11_t27 :
    nextIs (exec (.btSynth 6000000 500000) State.reset) (fun t => t.btSeg1 = 10 && t.btSeg2 = 1)
    && nextIs (exec (.btSynth 4294967295 4294967295) State.reset) (fun t => t.resp = .timing none) = true := by
  decide +kernel
/-- 95 2.4 X4. -/
theorem test_rxFrame_fills : nextIs (exec (.rxFrame (frameOf 0 8)) State.reset) (fun t =>
    t.mbFull && t.mb = frameOf 0 8 && t.ev = 0x40) = true := by decide
/-- 95 2.4 X9. -/
theorem test_rxFrame_refuses : exec (.rxFrame (frameOf 0 9)) State.reset = .refused .frameLength := by rfl
/-- 95 2.4 X5: the response word of the frame. -/
theorem test_recvNb_word : nextIs (exec .recvNb (filled (frameOf 0 8))) (fun t =>
    !t.mbFull && t.ev = 0 && responseWord .rational 0 t.resp = some (103, 0x5dd54000000247)) = true := by
  decide +kernel
/-- 95 2.4 X8: the response word of a remote frame. -/
theorem test_recvBlk_word : nextIs (exec (.recvBlk true) (filled remoteFrame)) (fun t =>
    !t.mbFull && t.ev = 0 && responseWord .rational 0 t.resp = some (103, 0x400000fff)) = true := by
  decide +kernel
/-- 95 2.5 D3: a second fetch overwrites the latch. -/
theorem test_mdFetch_overwrites :
    nextIs (exec (.mdFetch true) { filled (frameOf 0 8) with md := remoteFrame, mdHave := true }) (fun t =>
      t.md = frameOf 0 8 && t.mdHave && !t.mbFull && t.ev = 0) = true := by decide
/-- 95 2.5: `STOP` at `ev = 0x47` gives 0x67; `UP` at 0x28 gives 0x08. -/
theorem test_mdApply_table :
    nextIs (exec .mdApply (latched (frameOf 0x02 8) 0x47)) (fun t => t.ev = 0x67 && !t.mdHave)
    && nextIs (exec .mdApply (latched (frameOf 0x00 8) 0x28)) (fun t => t.ev = 0x08) = true := by decide
/-- 95 Program 4 row 2: the last byte of a short frame, with the fallback on and off. -/
theorem test_mdApply_short :
    let f : Frame := { id := 0x1ABCDEF0, ext := true, rtr := false, len := 2, data := #v[7, 1, 0, 0, 0, 0, 0, 0] }
    let on : Config := { Config.default with shortFrameCompat := true }
    (nextIs (exec .mdApply { latched f 0x20 with cfg := on }) (fun t => t.ev = 0x10)
      && nextIs (exec .mdApply (latched f 0x20)) (fun t => t.ev = 0x20)) = true := by decide
/-- 95 2.6 E1. -/
theorem test_evSet_e1 : nextIs (exec (.evSet 0xFF) State.reset) (fun t => t.ev = 0x7F) = true := by decide
/-- 95 2.6 E2. -/
theorem test_evClear_e2 : nextIs (exec (.evClear 0x81) { State.reset with ev := 0x7F })
    (fun t => t.ev = 0x7E) = true := by decide
/-- 95 2.6 E5: the whole word before the clear. -/
theorem test_evWait_e5 : nextIs (exec (.evWait 0x04 true true) { State.reset with ev := 0x05 }) (fun t =>
    t.ev = 0x01 && responseWord .rational 0 t.resp = some (9, 0x005)) = true := by decide +kernel
/-- 95 2.6 E6: nothing is cleared on a timeout. -/
theorem test_evWait_e6 : nextIs (exec (.evWait 0x06 true true) { State.reset with ev := 0x01, expire := true })
    (fun t => t.ev = 0x01 && responseWord .rational 0 t.resp = some (9, 0x101)) = true := by decide +kernel
/-- 95 2.7 S1, third sample: the threshold itself qualifies. -/
theorem test_fsmSample_s1 : nextIs (exec (.fsmSample true (.rational 90)) { State.reset with cntLeft := 2 })
    (fun t => t.steer = .left && t.cntLeft = 0 && t.ev = 0x01) = true := by decide +kernel
/-- 95 2.7 S6, third sample, in binary32: the pattern of 30.0. -/
theorem test_fsmSample_s6 :
    nextIs (exec (.fsmSample true (.binary32 0x41F00000))
      { State.reset with cfg := cfgWith 32 .binary32, steer := .left, cntCenter := 2, ev := 0x01 })
      (fun t => t.steer = .center && t.cntCenter = 0 && t.ev = 0x05) = true := by decide +kernel
/-- 95 2.7: `len = 9` with a free slot gives `ok = 0`. -/
theorem test_canSend_length : nextIs (exec (.canSend (frameOf 0 9) true) State.reset)
    (fun t => t.resp = .sent none) = true := by decide
/-- 95 2.7: `len = 0`, `rtr = 1` with a free slot gives `ok = 1`. -/
theorem test_canSend_ok : nextIs (exec (.canSend remoteFrame true) State.reset)
    (fun t => t.resp = .sent (some remoteFrame)) = true := by decide

/-! ## Numbers -/

/-- 95 2.2, the tables of `wrap180`. -/
theorem test_wrap180_table :
    ([0, 180, -180, 1801 / 10, -1801 / 10, 350, -350, 360, 539, 540, 541, -540, 900, -900] : List Rat).map
        (wrap180 .rational)
      = [some 0, some 180, some (-180), some (-1799 / 10), some (1799 / 10), some (-10), some 10, some 0,
         some 179, some 180, some (-179), some (-180), some 180, some (-180)] := by decide +kernel
/-- IEEE 754: ties of integers above `2^24` go to the even neighbour; 95 2.2: `2^32 - 1` rounds to `2^32`. -/
theorem test_roundB32_ties :
    ([16777217, 16777219, 4294967295, -16777217] : List Rat).map roundB32
      = [16777216, 16777220, 4294967296, -16777216] := by decide +kernel
/-- 95 2.2: patterns of 45.0, -180.0, 1.0 and of the smallest positive subnormal. -/
theorem test_b32Bits_patterns :
    ([45, -180, 1, 1 / 2 ^ 149, 0] : List Rat).map b32Bits
      = [0x42340000, 0xC3340000, 0x3F800000, 0x00000001, 0] := by decide +kernel
/-- IEEE 754: the values of some patterns, an infinity and a NaN among them. -/
theorem test_b32Value_patterns :
    ([0x42BF4000, 0x80000001, 0xFF800000, 0x7FC00000] : List U32).map b32Value
      = [.fin (765 / 8), .fin (-1 / 2 ^ 149), .inf true, .nan] := by decide +kernel

/-! ## Short runs -/

/-- 95 2.1 F13, with `CNT_W = 4`: the residues of a period too long. -/
theorem test_residues : nextIs (runOps ([.rise] ++ ticksOps 5 ++ [.fall] ++ ticksOps 15 ++ [.rise])
    { State.reset with cfg := cfgWith 4 .rational }) (fun t => t.periodTicks = 4 && t.pulseTicks = 5) = true := by
  decide +kernel
/-- 95 Program 3, pass 7: `FSM_POLL` on a third sample of +95.625. -/
theorem test_fsmPoll : nextIs (runFsmPoll { zeroed .rational 1024 784 180 with cntLeft := 2 }) (fun t =>
    t.steer = .left && t.ev = 0x01 && !t.hasNew) = true := by decide +kernel
/-- 95 Program 3, pass 14: `FSM_POLL` with no new capture breaks the run, whatever angle the operand carries. -/
theorem test_fsmPoll_invalid : nextIs (runFsmPoll { State.reset with steer := .left, cntCenter := 2, ev := 0x01 })
    (fun t => t.steer = .left && t.cntCenter = 0 && t.ev = 0x01) = true := by decide +kernel
/-- 95 Program 2, steps 16 and 17: `MD_STEP` on `NORMAL` with `MODE_STOP` up. -/
theorem test_mdStep : nextIs (runMdStep { filled (frameOf 0x03 8) with ev := 0x60 }) (fun t =>
    t.ev = 0x00 && !t.mdHave && !t.mbFull) = true := by decide
/-- `RESET` is not software's (70 R350): from a task it is refused. -/
theorem test_step_reset_from_task : step (oneRequest State.reset .task 0x01) = .refused .contextForbidden := rfl
/-- `INIT` by one agent at power-up: its `RESET` is hardware's, its `BT_SYNTH` a task's (R330). -/
theorem test_init_one_agent :
    nextIs (step { State.reset with
        started := false
        agents := [{ role := .initialisation, requests := initRequests 36000000 500000 }]
        sched := [{ agent := 0, expire := false }, { agent := 0, expire := false }] })
      (fun t => t.started && decide (nextRequest t = some ({ agent := 0, expire := false },
        { ctx := .task, word := 0xf4240044aa2007, side := 0 }))) = true := by decide +kernel
/-- 60 R330: the angle task's `GET_ANGLE` is followed by its `FSM_SAMPLE` (0x70 has `valid = 1`), with the angle 90 of
95 2.2, and the decoder task's `MD_FETCH` by its `MD_APPLY`, but not when it got no frame. -/
theorem test_followUp :
    nextIs (step (oneRequest (zeroed .rational 1000 250 0) .task 0x06)) (fun t =>
      decide (t.agents = [{ role := .angleTask, requests := [requestOf .task (.fsmSample true (.rational 90))] }]))
    && nextIs (step (oneRequest (filled (frameOf 1 8)) .task 0x2b)) (fun t =>
      decide (t.agents = [{ role := .decoderTask, requests := [requestOf .task .mdApply] }]))
    && nextIs (step { oneRequest State.reset .task 0x2b with sched := [{ agent := 0, expire := true }] }) (fun t =>
      decide (t.agents = [{ role := .decoderTask, requests := [] }])) = true := by decide +kernel
/-- A pass split over two agents does not follow the table; nor does an `FSM_SAMPLE` that stands after a
`GET_ANGLE` of its own; nor a decoder task beside another mailbox reader. -/
theorem test_table_refuses :
    let ask (w : Word) : Request := { ctx := .task, word := w, side := 0 }
    (!tableFollowed { State.reset with agents :=
      [{ role := .angleTask, requests := [ask 0x06] }, { role := .angleTask, requests := [ask 0x30] }] }
    && !tableFollowed { State.reset with agents :=
      [{ role := .angleTask, requests := [ask 0x06] }, { role := .consumer, requests := [ask 0x30] }] }
    && !tableFollowed { State.reset with agents := [{ role := .angleTask, requests := [ask 0x06, ask 0x30] }] }
    && !tableFollowed { State.reset with agents :=
      [{ role := .decoderTask, requests := [ask 0x0b] }, { role := .mailboxReader, requests := [ask 0x09] }] })
      = true := by decide +kernel
/-- 95 2.8: `RESET` fetched and run by the step. -/
theorem test_step_reset : nextIs (step (State.reset.withFetchWord 5 0x01)) (fun t => t.resp = .empty) = true := by
  decide +kernel

/-! ## Witnesses: states and operands that meet the hypotheses of each statement -/

theorem witness_DecodeOfEncodeIsTheOperation :
    WellFormed .rational (.rxFrame (frameOf 0 8)) = true
    ∧ WellFormed .rational (.fsmSample true (.rational 90)) = true
    ∧ WellFormed .binary32 (.fsmSample true (.binary32 0x42BF4000)) = true := by decide

/-- With bits above the width, with bits 14:13 of `EV_SET`, and with a side port. -/
theorem witness_EncodeOfDecodeKeepsEverySignificantBit :
    decode .rational 0xFFFFE0 0 = .ok .idle ∧ decode .rational 0x7FED 0 = .ok (.evSet 0xFF)
    ∧ decode .rational 0x70 (1 / 3) = .ok (.fsmSample true (.rational (1 / 3))) := by decide +kernel

/-- Selectors 17, 18 and 31; lengths 8, 9 and 15. -/
theorem witness_DecoderRejectsExactlyTheReservedWords :
    18 ≤ ((0x12 : Word).extractLsb' 0 5).toNat ∧ 18 ≤ ((0x1F : Word).extractLsb' 0 5).toNat
    ∧ (((0x08 + 9 * 2 ^ 39 : Word)).extractLsb' 0 5).toNat = 8
    ∧ 8 < (((0x08 + 9 * 2 ^ 39 : Word)).extractLsb' 39 4).toNat
    ∧ 8 < (((0x08 + 15 * 2 ^ 39 : Word)).extractLsb' 39 4).toNat
    ∧ (((0x08 + 8 * 2 ^ 39 : Word)).extractLsb' 39 4).toNat ≤ 8
    ∧ ((0x11 : Word).extractLsb' 0 5).toNat < 18 := by decide

theorem witness_BitsAboveTheFormatAreIgnored :
    (∀ b : Nat, b < formatWidth .rational (selector 0x02) → (0x02 : Word).getLsbD b = (0xFFFFE2 : Word).getLsbD b)
    ∧ (0x02 : Word) ≠ 0xFFFFE2 := by decide +kernel

/-- An operation that completes, one that waits, and one that is refused. -/
theorem witness_StepRunsTheDecodedOperation :
    let a : State := oneRequest State.reset .hardware 0x02
    let b : State := oneRequest State.reset .task 0x0a
    let c : State := oneRequest { State.reset with lvl := .high } .hardware 0x03
    (decode a.cfg.num 0x02 0 = .ok .tick ∧ allowed .hardware .tick = true ∧ a.started = true
      ∧ nextIs (exec .tick { a with expire := false }) (fun t => t.resp ≠ .waiting) = true)
    ∧ (decode b.cfg.num 0x0a 0 = .ok (.recvBlk false) ∧ allowed .task (.recvBlk false) = true
      ∧ nextIs (exec (.recvBlk false) { b with expire := false }) (fun t => t.resp = .waiting) = true)
    ∧ (decode c.cfg.num 0x03 0 = .ok .rise ∧ allowed .hardware .rise = true
      ∧ exec .rise { c with expire := false } = .refused .riseWhileHigh) := by
  refine ⟨⟨?_, rfl, rfl, ?_⟩, ⟨?_, rfl, ?_⟩, ⟨?_, rfl, rfl⟩⟩ <;> decide +kernel

/-- A loop whose body does not move has no value, with any fuel. -/
theorem whileLoop_stuck {test : Rat → Bool} {body : Rat → Rat} {x : Rat} (h : test x = true) (hb : body x = x)
    (n : Nat) : whileLoop test body n x = none := by
  induction n with
  | zero => simp [whileLoop, h]
  | succ n ih => simp [whileLoop, h, hb, ih]

theorem wrap180_stuck {dom : NumDomain} {x : Rat} (h1 : ¬ 180 < x) (h2 : x < -180)
    (h3 : numRound dom (x + 360) = x) : wrap180 dom x = none := by
  have stop : ∀ n, whileLoop (fun y => decide ((180 : Rat) < y)) (fun y => numRound dom (y - 360)) n x = some x := by
    intro n; cases n <;> simp [whileLoop, h1]
  rw [wrap180, foldTurn, stop]
  exact whileLoop_stuck (by simpa using h2) h3 _

theorem getAngle_faults {s : State} {a x : Rat} (h1 : angleFailure s = none)
    (h2 : absoluteAngle s.cfg s.periodTicks s.pulseTicks = some a)
    (h3 : numRound s.cfg.num (a - s.zeroDegrees) = x) (h4 : wrap180 s.cfg.num x = none) :
    exec .getAngle s = .fault .angleLoopEndless := by
  simp [exec, execGetAngle, h1, takeRelative, h2, relativeAngle, h3, h4]

/-- A state outside every run in which `GET_ANGLE` faults: a binary32 reference of `2^34` (41_angle_decode.md
R166). -/
theorem witness_StepRunsTheDecodedOperation_fault :
    exec .getAngle { oneRequest (zeroed .binary32 1000 250 17179869184) .task 0x06 with expire := false }
      = .fault .angleLoopEndless :=
  getAngle_faults (a := 90) (x := -17179869184) (by decide +kernel) (by decide +kernel) (by decide +kernel)
    (wrap180_stuck (by decide +kernel) (by decide +kernel) (by decide +kernel))

/-- A reserved selector, a length of 9; one selector for each row of the contexts, in a request from that context;
`RESET` from a task and from hardware; a state before the first `RESET`, with `RESET` and with another operation. -/
theorem witness_StepRefusesWhatTheInterfaceDoesNotAccept :
    let req (ctx : Context) (w : Word) : Prop :=
      nextRequest (oneRequest State.reset ctx w)
        = some ({ agent := 0, expire := false }, { ctx := ctx, word := w, side := 0 })
    req .task 0x12 ∧ req .interrupt (0x08 + 9 * 2 ^ 39)
    ∧ (req .interrupt 0x0a ∧ decode .rational 0x0a 0 = .ok (.recvBlk false))
    ∧ (req .task 0x05 ∧ decode .rational 0x05 0 = .ok (.capture 0 0))
    ∧ (req .task 0x03 ∧ decode .rational 0x03 0 = .ok .rise)
    ∧ (req .hardware 0x11 ∧ ∃ f b, decode .rational 0x11 0 = .ok (.canSend f b))
    ∧ (req .interrupt 0x0d ∧ decode .rational 0x0d 0 = .ok (.evSet 0))
    ∧ (req .task 0x01 ∧ decode .rational 0x01 0 = .ok .reset)
    ∧ req .hardware 0x01
    ∧ (req .hardware 0x04 ∧ decode .rational 0x04 0 = .ok .fall)
    ∧ nextRequest { oneRequest State.reset .task 0x0d with started := false }
      = some ({ agent := 0, expire := false }, { ctx := .task, word := 0x0d, side := 0 }) := by
  refine ⟨?_, ?_, ?_, ?_, ?_, ⟨?_, ⟨zeroFrame, false, ?_⟩⟩, ?_, ?_, ?_, ?_, ?_⟩ <;> decide +kernel

/-- A handler's `CAPTURE` and `RX_FRAME` and the pin's `RISE` change a cell. -/
theorem witness_ContextsProtectTheCells :
    (decode .rational 0x1f4000007d05 0 = .ok (.capture 1000 250)
      ∧ nextIs (step (oneRequest State.reset .interrupt 0x1f4000007d05)) (fun u => u.periodTicks ≠ 0) = true)
    ∧ (decode .rational 0x03 0 = .ok .rise
      ∧ nextIs (step (oneRequest { State.reset with lvl := .low, armed := true, cnt := 4, ccrPulse := 1 } .hardware 0x03))
        (fun u => u.periodTicks ≠ 0 ∧ u.pulseTicks ≠ 0) = true)
    ∧ nextIs (step (oneRequest State.reset .interrupt 0x83923579bde08)) (fun u => u.mb ≠ State.reset.mb) = true := by
  decide +kernel

theorem witness_WaitingRequestKeepsItsPlace :
    nextIs (step (oneRequest State.reset .task 0x0a)) (fun u => u.resp = .waiting) = true
    ∧ nextRequest (oneRequest State.reset .task 0x0a) ≠ none := by decide +kernel

/-- The four clauses; the mask 0x80 selects nothing. -/
theorem witness_WaitsEitherExpireOrWait :
    State.reset.mbFull = false ∧ ({ State.reset with expire := true } : State).expire = true
    ∧ State.reset.expire = false ∧ readEv { State.reset with ev := 0x7F } &&& 0x80 &&& 0x7F = 0
    ∧ readEv { State.reset with ev := 0x01 } &&& 0x06 &&& 0x7F = 0 := by decide

/-- Widths 1 and 32. -/
theorem witness_TickCountsModuloTheCounterWidth :
    (cfgWith 1 .rational).cntW ≤ 32 ∧ (cfgWith 32 .rational).cntW ≤ 32 := by decide

theorem witness_RiseLatchesThePeriodAndRestarts :
    (State.reset.lvl ≠ .high ∧ State.reset.armed = false)
    ∧ (armedState.lvl ≠ .high ∧ armedState.armed = true ∧ armedState.wrapped = false)
    ∧ (let s : State := { armedState with wrapped := true, cfg := { Config.default with wrappedPair := .anyPair } }
      s.lvl ≠ .high ∧ s.armed = true ∧ s.wrapped = true ∧ s.cfg.wrappedPair = .anyPair)
    ∧ ({ armedState with lvl := .high } : State).lvl = .high := by decide

theorem witness_FallLatchesThePulseWidth : State.reset.lvl ≠ .low ∧ armedState.lvl = .low := by decide

theorem witness_InterruptWritesNeverBlockOrFail :
    (frameOf 0 8).len.toNat ≤ 8 ∧ remoteFrame.len.toNat ≤ 8 := by decide

/-- The longest period a counter of 4 bits holds. -/
theorem witness_OnePeriodIsCapturedExactly :
    (cfgWith 4 .rational).cntW ≤ 32 ∧ State.reset.lvl ≠ .high ∧ 5 + 10 < 2 ^ (cfgWith 4 .rational).cntW := by decide

theorem witness_LongPeriodIsCapturedAsResidues :
    (cfgWith 4 .rational).cntW ≤ 32 ∧ State.reset.lvl ≠ .high
    ∧ (cfgWith 4 .rational).wrappedPair = .residues := by decide

theorem inv_armedState : Inv armedState where
  cfg := by decide +kernel
  timer := { cnt := by decide, ccrPeriod := by decide, ccrPulse := by decide, armed := by decide, pulse := by decide }
  zero := { low := nofun, high := nofun, positive := nofun }
  timing := { prescaler := nofun, seg1 := nofun, seg2 := nofun, quanta := nofun }
  frames := { mailbox := nofun, latch := nofun }
  steer := { left := by decide, right := by decide, center := by decide, atCenter := by decide, turned := by decide }
  ev := by decide

theorem witness_CapturedPulseIsNotAboveThePeriod :
    Inv armedState ∧ armedState.armed = true ∧ armedState.wrapped = false
    ∧ nextIs (exec .rise armedState) (fun _ => true) = true :=
  ⟨inv_armedState, rfl, rfl, by decide⟩

theorem witness_GetAngleWithoutCaptureChangesNothing :
    State.reset.hasNew = false
    ∧ nextIs (exec (.capture 1000 250) State.reset) (fun t => t.hasNew) = true
    ∧ armedState.hasNew = false ∧ nextIs (exec .rise armedState) (fun t => t.hasNew) = true := by decide

/-- States with a pair and, where `zero` is given, a reference: they satisfy the invariant. -/
theorem inv_zeroed : Inv (zeroed .binary32 3 2 359) where
  cfg := by decide +kernel
  timer := { cnt := by decide, ccrPeriod := by decide, ccrPulse := by decide, armed := by decide, pulse := by decide }
  zero := { low := by decide +kernel, high := by decide +kernel, positive := nofun }
  timing := { prescaler := nofun, seg1 := nofun, seg2 := nofun, quanta := nofun }
  frames := { mailbox := nofun, latch := nofun }
  steer := { left := by decide, right := by decide, center := by decide, atCenter := by decide, turned := by decide }
  ev := by decide

theorem inv_paired : Inv (paired .rational 2 1) where
  cfg := by decide +kernel
  timer := { cnt := by decide, ccrPeriod := by decide, ccrPulse := by decide, armed := by decide, pulse := by decide }
  zero := { low := nofun, high := nofun, positive := nofun }
  timing := { prescaler := nofun, seg1 := nofun, seg2 := nofun, quanta := nofun }
  frames := { mailbox := nofun, latch := nofun }
  steer := { left := by decide, right := by decide, center := by decide, atCenter := by decide, turned := by decide }
  ev := by decide

/-- The boundary pairs of the filter: `P = 0`, `W = 0`, `W = P`, and `0 < W < P` with and without a reference. -/
theorem witness_ValidityFilterAcceptsExactlyProperDuty :
    ((paired .rational 0 0).hasNew = true ∧ (paired .rational 0 0).periodTicks.toNat = 0)
    ∧ (paired .rational 1000 0).pulseTicks.toNat = 0
    ∧ (paired .rational 1000 1000).periodTicks.toNat ≤ (paired .rational 1000 1000).pulseTicks.toNat
    ∧ (Inv (paired .rational 2 1) ∧ (paired .rational 2 1).zeroInit = false
      ∧ 0 < (paired .rational 2 1).pulseTicks.toNat
      ∧ (paired .rational 2 1).pulseTicks.toNat < (paired .rational 2 1).periodTicks.toNat)
    ∧ (Inv (zeroed .binary32 3 2 359) ∧ (zeroed .binary32 3 2 359).zeroInit = true
      ∧ 0 < (zeroed .binary32 3 2 359).pulseTicks.toNat
      ∧ (zeroed .binary32 3 2 359).pulseTicks.toNat < (zeroed .binary32 3 2 359).periodTicks.toNat) := by
  refine ⟨?_, ?_, ?_, ⟨inv_paired, ?_, ?_, ?_⟩, inv_zeroed, ?_, ?_, ?_⟩ <;> decide

theorem witness_FirstAcceptedPairBecomesTheZeroReference :
    (paired .rational 2 1).cfg.num = .rational ∧ (paired .rational 2 1).hasNew = true
    ∧ (paired .rational 2 1).zeroInit = false ∧ 0 < (paired .rational 2 1).pulseTicks.toNat
    ∧ (paired .rational 2 1).pulseTicks.toNat < (paired .rational 2 1).periodTicks.toNat := by decide

/-- With a correction down (95 2.2 A11), one up (B2), and none at the closed end (A10). -/
theorem witness_RelativeAngleIsTheWrappedDifference :
    (zeroed .rational 1000 999 90).cfg.num = .rational ∧ (zeroed .rational 1000 999 90).hasNew = true
    ∧ (zeroed .rational 1000 999 90).zeroInit = true ∧ 0 < (zeroed .rational 1000 999 90).pulseTicks.toNat
    ∧ (zeroed .rational 1000 999 90).pulseTicks.toNat < (zeroed .rational 1000 999 90).periodTicks.toNat
    ∧ nextIs (exec .getAngle (zeroed .rational 1024 64 (675 / 2))) (fun t => t.resp = .angle (some 45)) = true
    ∧ nextIs (exec .getAngle (zeroed .rational 1000 750 90)) (fun t => t.resp = .angle (some 180)) = true := by
  decide +kernel

theorem witness_AnglesOfARunStayWithinHalfATurn :
    Inv (zeroed .binary32 3 2 359)
    ∧ nextIs (exec .getAngle (zeroed .binary32 3 2 359)) (fun t => completed t.resp && t.resp ≠ .angle none) = true :=
  ⟨inv_zeroed, by decide +kernel⟩

theorem witness_ZeroReferenceIsSetOnce :
    nextIs (exec .getAngle (paired .rational 2 1)) (fun t => t.zeroInit) = true
    ∧ (paired .rational 2 1).zeroInit = false
    ∧ nextIs (exec .getAngle (zeroed .rational 3 2 120)) (fun t => t.zeroInit) = true
    ∧ (zeroed .rational 3 2 120).zeroInit = true ∧ Instr.getAngle ≠ .reset := by decide +kernel

theorem witness_Wrap180EqualsItsClosedForm :
    (180 : Rat) < 1801 / 10 ∧ (-1801 / 10 : Rat) < -180 ∧ (-180 : Rat) ≤ -180 ∧ (180 : Rat) ≤ 180 := by
  decide +kernel

/-- An inexact value, the largest magnitude, and a tie: `2^24 + 1` lies halfway between `2^24` and `2^24 + 2`. -/
theorem witness_Binary32RoundingIsNearest :
    |(1 / 3 : Rat)| ≤ 2 ^ 127 ∧ b32Value 0x3F800000 = .fin 1 ∧ |(2 ^ 127 : Rat)| ≤ 2 ^ 127
    ∧ |(16777217 : Rat)| ≤ 2 ^ 127 ∧ b32Value 0x4B800001 = .fin 16777218
    ∧ roundB32 16777217 = 16777216 ∧ |(16777218 : Rat) - 16777217| = |(16777216 : Rat) - 16777217| := by
  refine ⟨?_, by decide +kernel, ?_, ?_, by decide +kernel, by decide +kernel, ?_⟩ <;> norm_num

theorem witness_Binary32PatternHasTheRoundedValue :
    |(1 / 3 : Rat)| ≤ 2 ^ 127 ∧ |(-2 ^ 127 : Rat)| ≤ 2 ^ 127
    ∧ Inv (zeroed .binary32 3 2 359) ∧ (zeroed .binary32 3 2 359).cfg.num = .binary32
    ∧ nextIs (exec .getAngle (zeroed .binary32 3 2 359)) (fun t => t.resp = .angle (some (-119))) = true :=
  ⟨by norm_num, by norm_num, inv_zeroed, rfl, by decide +kernel⟩

/-- 95 2.2 A2 and A11 in binary32, and the reference at the ends of its range. -/
theorem witness_Binary32AngleRoundsEachOperation :
    ((paired .binary32 1000 250).cfg.num = .binary32 ∧ (paired .binary32 1000 250).hasNew = true
      ∧ 0 < (paired .binary32 1000 250).pulseTicks.toNat
      ∧ (paired .binary32 1000 250).pulseTicks.toNat < (paired .binary32 1000 250).periodTicks.toNat
      ∧ (paired .binary32 1000 250).zeroInit = false)
    ∧ ((zeroed .binary32 1000 999 0).zeroInit = true ∧ 0 ≤ (zeroed .binary32 1000 999 0).zeroDegrees
      ∧ (zeroed .binary32 1000 1 359).zeroDegrees < 360) := by decide +kernel

/-- 95 2.3 T2, with the rival `TQ = 9`, `seg2 = 1` at the same distance. -/
theorem witness_BitTimingResultIsExactAndNearest :
    let c := State.reset.cfg
    c.wf = true
    ∧ nextIs (exec (.btSynth 36000000 1000000) State.reset) (fun t =>
      t.resp = .timing (some { prescaler := 2, seg1 := 15, seg2 := 2 })) = true
    ∧ (c.tqMin ≤ 9 ∧ 9 ≤ c.tqMax ∧ c.seg2Min ≤ 1 ∧ 1 ≤ c.seg2Max ∧ 1000000 * 9 ≠ 0 ∧ 36000000 % (1000000 * 9) = 0
      ∧ c.prescMin ≤ 36000000 / (1000000 * 9) ∧ 36000000 / (1000000 * 9) ≤ c.prescMax ∧ 1 + 1 + c.seg1Min ≤ 9
      ∧ 9 ≤ 1 + 1 + c.seg1Max) := by
  decide +kernel

/-- 95 2.3 T1 has the candidate `TQ = 8`, `seg2 = 1`; T23, a bit rate of 0, has none. -/
theorem witness_BitTimingFindsAResultExactlyWhenOneExists :
    let c := State.reset.cfg
    (8 ≤ c.tqMax ∧ c.tqMin ≤ 8 ∧ c.seg2Min ≤ 1 ∧ 1 ≤ c.seg2Max ∧ 500000 * 8 ≠ 0 ∧ 36000000 % (500000 * 8) = 0
      ∧ c.prescMin ≤ 36000000 / (500000 * 8) ∧ 36000000 / (500000 * 8) ≤ c.prescMax ∧ 1 + 1 + c.seg1Min ≤ 8
      ∧ 8 ≤ 1 + 1 + c.seg1Max)
    ∧ ¬ ∃ tq seg2 : Nat, c.tqMin ≤ tq ∧ tq ≤ c.tqMax ∧ c.seg2Min ≤ seg2 ∧ seg2 ≤ c.seg2Max
        ∧ (0 : U32).toNat * tq ≠ 0 ∧ (36000000 : U32).toNat % ((0 : U32).toNat * tq) = 0
        ∧ c.prescMin ≤ (36000000 : U32).toNat / ((0 : U32).toNat * tq)
        ∧ (36000000 : U32).toNat / ((0 : U32).toNat * tq) ≤ c.prescMax
        ∧ seg2 + 1 + c.seg1Min ≤ tq ∧ tq ≤ seg2 + 1 + c.seg1Max := by
  refine ⟨by decide, ?_⟩
  rintro ⟨tq, seg2, -, -, -, -, h, -⟩
  simp at h

theorem witness_BitTimingSearchEqualsTheTable :
    Config.default.fixedValues = true ∧ Config.default.tqMin = 8 ∧ Config.default.tqMax = 25
    ∧ Config.default.seg2Tie = .smaller := by decide

/-- 95 2.3 T22, T23, T20, T24 and T25. -/
theorem witness_NoBitTimingOutsideTheRatioBounds :
    let c := State.reset.cfg
    1 ≤ c.prescMin ∧ (0 : U32).toNat = 0 ∧ (36000000 : U32).toNat % (7 : U32).toNat ≠ 0
    ∧ (36000000 : U32).toNat < c.prescMin * c.tqMin * (36000000 : U32).toNat
    ∧ c.prescMax * c.tqMax * (10 : U32).toNat < (256250 : U32).toNat := by decide

theorem witness_RxFrameOverwritesTheMailbox :
    ((0x15dd540000002468 : Word).extractLsb' 0 5).toNat = 8
    ∧ ((0x15dd540000002468 : Word).extractLsb' 39 4).toNat ≤ 8
    ∧ (frameOf 0 8).len.toNat ≤ 8 ∧ 8 < (frameOf 0 9).len.toNat := by decide

theorem witness_RecvNbDrainsTheMailboxOnce :
    ((0x09 : Word).extractLsb' 0 5).toNat = 9 ∧ State.reset.mbFull = false
    ∧ (filled (frameOf 0 8)).mbFull = true
    ∧ nextIs (exec (.rxFrame (frameOf 0 8)) State.reset) (fun t => t.mbFull = true) = true
    ∧ nextIs (runOps [.recvNb, .reset, .mdApply, .recvNb] (filled (frameOf 0 8))) (fun t => t.mbFull = false) = true := by
  decide

theorem witness_BlockingReadsDrainAFullMailbox : (filled remoteFrame).mbFull = true := rfl

theorem witness_LatestFrameWins : (frameOf 2 8).len.toNat ≤ 8 ∧ remoteFrame.len.toNat ≤ 8 := by decide

/-- The shortest full frame, and the two lengths of the fallback. -/
theorem witness_MdApplySetsTheModeOfTheByte :
    let on : Config := { Config.default with shortFrameCompat := true }
    let short : Frame := { id := 0, ext := false, rtr := false, len := 1, data := #v[3, 1, 0, 0, 0, 0, 0, 0] }
    ((latched (frameOf 3 3) 0).mdHave = true ∧ (frameOf 3 3).rtr = false ∧ (3 : Byte).toNat ≤ 3
      ∧ on.modeOffset < (frameOf 3 3).len.toNat ∧ (frameOf 3 3).data[on.modeOffset]? = some 3)
    ∧ (on.shortFrameCompat = true ∧ short.rtr = false ∧ 1 ≤ short.len.toNat ∧ short.len.toNat ≤ on.modeOffset
      ∧ short.data[short.len.toNat - 1]? = some 3)
    ∧ ({ short with len := 2 }).data[({ short with len := 2 }).len.toNat - 1]? = some 1 := by decide

/-- No frame; a short frame of each kind; an unknown byte under either choice. -/
theorem witness_MdApplyDropsEveryOtherFrame :
    State.reset.mdHave = false
    ∧ ((latched (frameOf 0 2) 0).mdHave = true ∧ (frameOf 0 2).rtr = false
      ∧ (frameOf 0 2).len.toNat ≤ Config.default.modeOffset
      ∧ Config.default.shortFrameCompat = false)
    ∧ (frameOf 0 0).len.toNat = 0
    ∧ ((frameOf 0 2).data[(frameOf 0 2).len.toNat - 1]? = some 0xBB ∧ 3 < (0xBB : Byte).toNat)
    ∧ (Config.default.modeOffset < (frameOf 4 3).len.toNat ∧ (frameOf 4 3).data[Config.default.modeOffset]? = some 4
      ∧ 3 < (4 : Byte).toNat
      ∧ Config.default.unknownMode = .dropped
      ∧ ({ Config.default with unknownMode := .asNormal }).unknownMode = .asNormal) := by decide

theorem witness_RemoteFramesAreConsumedAndDropped :
    (latched remoteFrame 0).mdHave = true ∧ remoteFrame.rtr = true ∧ remoteFrame.len.toNat ≤ 8 := by decide

theorem witness_ModeFlagsStayExclusive :
    nextIs (exec .mdApply (latched (frameOf 0x00 8) 0x20)) (fun t => readEv t = 0x08) = true
    ∧ (∀ m, Instr.mdApply ≠ .evSet m) ∧ readEv (latched (frameOf 0x00 8) 0x20) &&& 0x38 ∈ [(0x00 : Byte), 0x08, 0x10, 0x20] :=
  ⟨by decide, nofun, by decide⟩

theorem witness_MdApplyReadsOnlyTheModeByte :
    let s := latched (frameOf 1 8) 0
    s.cfg.modeOffset ≤ 7 ∧ s.cfg.modeOffset < s.md.len.toNat ∧ s.cfg.modeOffset < (3 : BitVec 4).toNat
    ∧ (#v[9, 9, 1, 9, 9, 9, 9, 9] : Payload)[s.cfg.modeOffset]? = s.md.data[s.cfg.modeOffset]? := by decide

theorem witness_ReceptionDoesNotDisturbAPass :
    (filled (frameOf 1 8)).mbFull = true ∧ (frameOf 2 8).len.toNat ≤ 8 := by decide

theorem witness_EvSetAndEvClearWriteTheirMask :
    ((0x1fed : Word).extractLsb' 0 5).toNat = 13 ∧ ((0x102e : Word).extractLsb' 0 5).toNat = 14 := by decide

theorem witness_EvWaitReturnsTheWordAndClearsTheMask :
    readEv { State.reset with ev := 0x05 } &&& 0x04 &&& 0x7F ≠ 0 := by decide

theorem witness_FlagOperationsCombine : (0x05 : Byte) &&& 0x38 = 0 := by decide

/-- Each way a flag falls. -/
theorem witness_NoFlagIsLostUnseen :
    let up : State := { State.reset with ev := 0x7F }
    (readEv up).getLsbD 6 = true
    ∧ nextIs (exec .reset up) (fun t => !(readEv t).getLsbD 6) = true
    ∧ nextIs (exec (.evClear 0x40) up) (fun t => !(readEv t).getLsbD 6) = true
    ∧ nextIs (exec (.evWait 0x40 true true) up) (fun t => !(readEv t).getLsbD 6) = true
    ∧ nextIs (exec .mdApply (latched (frameOf 3 8) 0x20)) (fun t => !(readEv t).getLsbD 5) = true
    ∧ nextIs (exec (.mdFetch false) (filled (frameOf 0 8))) (fun t => !(readEv t).getLsbD 6) = true := by decide

theorem witness_FlagBitsBelongToTheirWriters :
    nextIs (exec .mdApply (latched (frameOf 0x02 8) 0x47)) (fun t => readEv t = 0x67) = true := by decide

/-- Just inside the turn threshold, just outside the centre window on both sides, a NaN and an infinity; in binary32
89.984375 and 30.109375. -/
theorem witness_FailingSamplesResetTheDebounce :
    1 ≤ State.reset.cfg.debounceN ∧ 0 < State.reset.cfg.thTurn ∧ State.reset.steer = .center
    ∧ (State.reset.cfg.thTurn ≤ 95 ∧ (-95 : Rat) ≤ -State.reset.cfg.thTurn
      ∧ 1 + 1 < State.reset.cfg.debounceN ∧ State.reset.cfg.debounceN ≤ 2 + 1)
    ∧ nextIs (exec (.fsmSample true (.rational (-95))) { State.reset with cntLeft := 1 })
      (fun t => t.cntLeft = 0 && t.cntRight = 1) = true
    ∧ (-State.reset.cfg.thCenter ≤ (-30 : Rat) ∧ (30 : Rat) ≤ State.reset.cfg.thCenter)
    ∧ -State.reset.cfg.thTurn < (8999 / 100 : Rat) ∧ (8999 / 100 : Rat) < State.reset.cfg.thTurn
    ∧ ({ State.reset with steer := .left } : State).steer ≠ .center
    ∧ (-301 / 10 : Rat) < -State.reset.cfg.thCenter ∧ State.reset.cfg.thCenter < (301 / 10 : Rat)
    ∧ angleValue (.rational (8999 / 100)) = .fin (8999 / 100)
    ∧ angleValue (.binary32 0x42B3F800) = .fin (5759 / 64) ∧ (5759 / 64 : Rat) < State.reset.cfg.thTurn
    ∧ angleValue (.binary32 0x41F0E000) = .fin (1927 / 64) ∧ State.reset.cfg.thCenter < (1927 / 64 : Rat)
    ∧ angleValue (.binary32 0x7FC00000) = .nan ∧ angleValue (.binary32 0x7F800000) = .inf false := by
  decide +kernel

/-- Runs of two and three samples at the closed thresholds, for each of the three clauses, in both number domains; the
patterns are those of 90.0, -90.0, 30.0 and the two infinities. -/
theorem witness_RunOfNSamplesCausesOneTransition :
    State.reset.cfg.wf = true ∧ State.reset.cntLeft = 0 ∧ State.reset.cntRight = 0 ∧ State.reset.cntCenter = 0
    ∧ ([.rational 90, .binary32 0x42B40000, .binary32 0x7F800000] : List AnglePort).length
      = State.reset.cfg.debounceN
    ∧ ([.rational 90, .rational 95] : List AnglePort).length < State.reset.cfg.debounceN
    ∧ angleValue (.rational 90) = .fin 90 ∧ State.reset.cfg.thTurn ≤ 90
    ∧ angleValue (.binary32 0x42B40000) = .fin 90 ∧ angleValue (.binary32 0x7F800000) = .inf false
    ∧ angleValue (.binary32 0xC2B40000) = .fin (-90) ∧ (-90 : Rat) ≤ -State.reset.cfg.thTurn
    ∧ angleValue (.binary32 0xFF800000) = .inf true
    ∧ angleValue (.binary32 0x41F00000) = .fin 30 ∧ -State.reset.cfg.thCenter ≤ (30 : Rat)
    ∧ (30 : Rat) ≤ State.reset.cfg.thCenter
    ∧ State.reset.steer = .center ∧ ({ State.reset with steer := .right } : State).steer ≠ .center := by
  decide +kernel

theorem witness_SteeringNeverFlipsDirectly :
    nextIs (exec (.fsmSample true (.rational 90)) { State.reset with cntLeft := 2 })
      (fun t => t.steer ≠ State.reset.steer) = true
    ∧ Instr.fsmSample true (.rational 90) ≠ .reset := by decide +kernel

theorem witness_CanSendAnswersAndChangesNothing :
    (frameOf 0 8).len.toNat ≤ 8 ∧ 8 < (frameOf 0 9).len.toNat := by decide

theorem witness_ResetEstablishesTheStartState : armedState.cfg.wf = true := by decide +kernel

/-- From states of a run, in both number domains: a step that runs `RISE` and one that runs `GET_ANGLE`. -/
theorem witness_EveryStepKeepsTheInvariant :
    Inv (oneRequest armedState .hardware 0x03) ∧ Inv (oneRequest (zeroed .binary32 3 2 359) .task 0x06)
    ∧ nextIs (step (oneRequest armedState .hardware 0x03)) (fun t => t.hasNew) = true
    ∧ nextIs (step (oneRequest (zeroed .binary32 3 2 359) .task 0x06)) (fun t => !t.hasNew) = true :=
  ⟨{ cfg := inv_armedState.cfg
     timer := ⟨inv_armedState.timer.cnt, inv_armedState.timer.ccrPeriod, inv_armedState.timer.ccrPulse,
       inv_armedState.timer.armed, inv_armedState.timer.pulse⟩
     zero := ⟨inv_armedState.zero.low, inv_armedState.zero.high, inv_armedState.zero.positive⟩
     timing := ⟨nofun, nofun, nofun, nofun⟩
     frames := ⟨nofun, nofun⟩
     steer := ⟨by decide, by decide, by decide, by decide, by decide⟩
     ev := by decide },
   { cfg := inv_zeroed.cfg
     timer := ⟨inv_zeroed.timer.cnt, inv_zeroed.timer.ccrPeriod, inv_zeroed.timer.ccrPulse,
       inv_zeroed.timer.armed, inv_zeroed.timer.pulse⟩
     zero := ⟨inv_zeroed.zero.low, inv_zeroed.zero.high, inv_zeroed.zero.positive⟩
     timing := ⟨nofun, nofun, nofun, nofun⟩
     frames := ⟨nofun, nofun⟩
     steer := ⟨by decide, by decide, by decide, by decide, by decide⟩
     ev := by decide },
   by decide +kernel, by decide +kernel⟩

theorem witness_NoStepFaultsFromTheInvariant : Inv (zeroed .binary32 3 2 359) := inv_zeroed

/-- A write outside the row, and two states that differ outside the row of `TICK`; of `RESET` nothing is asked. -/
theorem witness_OperationsTouchOnlyTheirGroups :
    nextIs (exec .rise armedState) (fun _ => true) = true ∧ mayWrite .rise .mailbox = false
    ∧ Instr.rise ≠ .reset
    ∧ (∀ g : Group, mayWrite .tick g = true → sameGroup g State.reset (filled remoteFrame))
    ∧ (filled remoteFrame).cfg = State.reset.cfg ∧ (filled remoteFrame).expire = State.reset.expire
    ∧ (filled remoteFrame).wrapped = State.reset.wrapped ∧ (filled remoteFrame).draws = State.reset.draws
    ∧ ¬ sameGroup .mailbox State.reset (filled remoteFrame)
    ∧ nextIs (exec .tick State.reset) (fun _ => true) = true := by
  refine ⟨by decide, rfl, nofun, ?_, rfl, rfl, rfl, rfl, ?_, by decide⟩
  · intro g hg
    have hg' : g = .timer := by simpa [mayWrite] using hg
    subst hg'
    exact ⟨rfl, rfl, rfl, rfl, rfl⟩
  · intro h
    exact absurd h.2 (by decide)

/-- A sensor, an angle task between the halves of a pass, a decoder task, two consumers and a producer in an interrupt,
idle ones among them; then a step of the pass's first half. -/
theorem witness_EveryStepKeepsTheContracts :
    let ask (ctx : Context) (w : Word) : Request := { ctx := ctx, word := w, side := 0 }
    let s : State := { State.reset with
      agents := [{ role := .sensor, requests := [ask .hardware 0x03, ask .hardware 0x02] },
        { role := .angleTask, requests := [ask .task 0x30, ask .task 0x00, ask .task 0x06] },
        { role := .decoderTask, requests := [ask .task 0x2b, ask .task 0x2b] },
        { role := .consumer, requests := [ask .task 0x270f] }, { role := .consumer, requests := [ask .task 0x102e] },
        { role := .producer, requests := [ask .interrupt 0x1fed] }, { role := .initialisation, requests := [] }]
      sched := [{ agent := 1, expire := false }] }
    tableFollowed s = true ∧ disciplined s = true ∧ nextIs (step s) (fun _ => true) = true
    ∧ disciplined (oneRequest (zeroed .binary32 3 2 359) .task 0x06) = true
    ∧ nextIs (step (oneRequest (zeroed .binary32 3 2 359) .task 0x06)) disciplined = true := by decide +kernel

end Sys2Proof.Tests
end

/-! PROOFS. What `GET_ANGLE` answers in each branch, which operations leave the capture cell alone, and the
statements O18 and O19 of 41_angle_decode.md R151 and R152. -/

namespace Sys2Proof.Machine

open Sys2Proof

/-! The branches of `GET_ANGLE` -/

/-- The arm of `GET_ANGLE` in `exec`. -/
theorem exec_getAngle (s : State) : exec .getAngle s = execGetAngle s := rfl

/-- The check of R151 comes first: the pair is not looked at. -/
theorem angleFailure_noNewCapture {s : State} (h : s.hasNew = false) : angleFailure s = some .noNewCapture := by
  simp [angleFailure, h]

/-- The validity filter of R152 names one of its three reasons. -/
theorem angleFailure_rejected {s : State} (hn : s.hasNew = true)
    (h : s.periodTicks.toNat = 0 ∨ s.pulseTicks.toNat = 0 ∨ s.periodTicks.toNat ≤ s.pulseTicks.toNat) :
    angleFailure s = some .zeroPeriod ∨ angleFailure s = some .zeroPulse
      ∨ angleFailure s = some .pulseGePeriod := by
  have hrej : s.periodTicks = 0 ∨ s.pulseTicks = 0 ∨ s.periodTicks.toNat ≤ s.pulseTicks.toNat :=
    h.imp (BitVec.eq_of_toNat_eq (y := 0)) (Or.imp_left (BitVec.eq_of_toNat_eq (y := 0)))
  rw [angleFailure, if_neg (by simp [hn])]
  split_ifs with hP hW hge
  · exact .inl rfl
  · exact .inr (.inl rfl)
  · exact .inr (.inr rfl)
  all_goals exact absurd hrej (not_or.mpr ⟨hP, not_or.mpr ⟨hW, hge⟩⟩)

/-- A pair with `0 < W < P` passes the filter; only the zero reference may still be missing. -/
theorem angleFailure_accepted {s : State} (hn : s.hasNew = true) (h0 : 0 < s.pulseTicks.toNat)
    (h1 : s.pulseTicks.toNat < s.periodTicks.toNat) :
    angleFailure s = if s.zeroInit = false then some .zeroingSample else none := by
  have hP : s.periodTicks ≠ 0 := fun h => by simp [h] at h1
  have hW : s.pulseTicks ≠ 0 := fun h => by simp [h] at h0
  rw [angleFailure, if_neg (by simp [hn]), if_neg hP, if_neg hW, if_neg (by omega)]

theorem execGetAngle_noNewCapture {s : State} (h : s.hasNew = false) :
    execGetAngle s = .next { s with resp := .angle none } := by
  simp [execGetAngle, angleFailure_noNewCapture h, respond]

theorem execGetAngle_rejected {s : State} (hn : s.hasNew = true)
    (h : s.periodTicks.toNat = 0 ∨ s.pulseTicks.toNat = 0 ∨ s.periodTicks.toNat ≤ s.pulseTicks.toNat) :
    execGetAngle s = .next { s with hasNew := false, resp := .angle none } := by
  rcases angleFailure_rejected hn h with hf | hf | hf <;> simp [execGetAngle, hf, respond]

theorem execGetAngle_accepted {s : State} (hn : s.hasNew = true) (h0 : 0 < s.pulseTicks.toNat)
    (h1 : s.pulseTicks.toNat < s.periodTicks.toNat) :
    execGetAngle s = if s.zeroInit = false then takeZero s else takeRelative s := by
  rw [execGetAngle, angleFailure_accepted hn h0 h1]
  cases s.zeroInit <;> rfl

/-- The zeroing sample never ends in the endless loop: the absolute angle of an accepted pair exists (R156). -/
theorem takeZero_next {s : State} (h1 : s.pulseTicks.toNat < s.periodTicks.toNat) :
    ∃ a, takeZero s
      = .next { s with hasNew := false, zeroDegrees := a, zeroInit := true, resp := .angle none } := by
  obtain ⟨a, ha, -, -⟩ := absoluteAngle_range s.cfg h1
  exact ⟨a, by simp [takeZero, ha, respond]⟩

/-- With a reference in `[0, 360)` the relative sample ends and has a value (R157). -/
theorem takeRelative_next {s : State} (h1 : s.pulseTicks.toNat < s.periodTicks.toNat)
    (hz0 : 0 ≤ s.zeroDegrees) (hz1 : s.zeroDegrees < 360) :
    ∃ rel, takeRelative s = .next { s with hasNew := false, resp := .angle (some rel) } := by
  obtain ⟨a, ha, ha0, ha1⟩ := absoluteAngle_range s.cfg h1
  obtain ⟨rel, hrel, -, -⟩ := relativeAngle_range s.cfg ha0 ha1 hz0 hz1
  exact ⟨rel, by simp [takeRelative, ha, hrel, respond]⟩

theorem takeZero_hasNew {s t : State} (h : takeZero s = .next t) : t.hasNew = false := by
  unfold takeZero at h
  split at h
  · cases h
  · rw [respond_eq_next.mp h]

theorem takeRelative_hasNew {s t : State} (h : takeRelative s = .next t) : t.hasNew = false := by
  unfold takeRelative at h
  split at h
  · cases h
  · split at h
    · cases h
    · rw [respond_eq_next.mp h]

/-- Read-and-clear in every branch (R161): no pair is pending after a `GET_ANGLE`. -/
theorem execGetAngle_hasNew {s t : State} (h : execGetAngle s = .next t) : t.hasNew = false := by
  cases hn : s.hasNew
  case false =>
    rw [execGetAngle_noNewCapture hn] at h
    cases h
    exact hn
  case true =>
    by_cases hr : s.periodTicks.toNat = 0 ∨ s.pulseTicks.toNat = 0
        ∨ s.periodTicks.toNat ≤ s.pulseTicks.toNat
    · rw [execGetAngle_rejected hn hr] at h
      cases h
      rfl
    · rw [execGetAngle_accepted hn (by omega) (by omega)] at h
      split at h
      · exact takeZero_hasNew h
      · exact takeRelative_hasNew h

/-! The operations that leave the capture cell alone -/

/-- A response is no part of the cell: an answer keeps what the state it is built on has kept. -/
theorem captureCell_respond {s u t : State} {r : Response} (h : respond u r = .next t)
    (hu : sameGroup .captureCell s u) : sameGroup .captureCell s t := by
  rw [respond_eq_next.mp h]
  exact hu

theorem captureCell_waitOrExpire {s t : State} {finite : Bool} {r : Response}
    (h : waitOrExpire s finite r = .next t) : sameGroup .captureCell s t := by
  rw [(waitOrExpire_next h).1]
  exact ⟨rfl, rfl, rfl⟩

theorem captureCell_sampleCenter (s : State) (angle : AnglePort) :
    sameGroup .captureCell s (sampleCenter s angle) := by
  simp only [sampleCenter]
  split
  · exact ⟨rfl, rfl, rfl⟩
  · split <;> exact ⟨rfl, rfl, rfl⟩

theorem captureCell_sampleTurned (s : State) (angle : AnglePort) :
    sameGroup .captureCell s (sampleTurned s angle) := by
  simp only [sampleTurned]
  split <;> exact ⟨rfl, rfl, rfl⟩

/-- The column `captureCell` of the access table (10_state.md R37): whatever may not write the cell keeps it. -/
theorem exec_keeps_captureCell {i : Instr} {s t : State} (hw : mayWrite i .captureCell = false)
    (h : exec i s = .next t) : sameGroup .captureCell s t := by
  cases i with
  | reset | rise | capture | getAngle => simp [mayWrite] at hw
  | idle => exact captureCell_respond h ⟨rfl, rfl, rfl⟩
  | tick => exact captureCell_respond h ⟨rfl, rfl, rfl⟩
  | fall =>
    simp only [exec, execFall] at h
    split at h
    · cases h
    all_goals exact captureCell_respond h ⟨rfl, rfl, rfl⟩
  | btSynth clockHz bitrateBps =>
    simp only [exec, execBtSynth] at h
    split at h <;> exact captureCell_respond h ⟨rfl, rfl, rfl⟩
  | rxFrame frame =>
    simp only [exec, execRxFrame] at h
    split at h
    · exact captureCell_respond h (by simp [sameGroup])
    · cases h
  | recvNb =>
    simp only [exec, execRecvNb] at h
    split at h
    · exact captureCell_respond h (by simp [sameGroup])
    · exact captureCell_respond h ⟨rfl, rfl, rfl⟩
  | recvBlk finite =>
    simp only [exec, execRecvBlk] at h
    split at h
    · exact captureCell_respond h (by simp [sameGroup])
    · exact captureCell_waitOrExpire h
  | mdFetch finite =>
    simp only [exec, execMdFetch] at h
    split at h
    · exact captureCell_respond h (by simp [sameGroup])
    · exact captureCell_waitOrExpire h
  | mdApply =>
    simp only [exec, execMdApply] at h
    split at h
    · split at h
      · exact captureCell_respond h ⟨rfl, rfl, rfl⟩
      · exact captureCell_respond h (by simp [sameGroup])
    · exact captureCell_respond h ⟨rfl, rfl, rfl⟩
  | evSet mask => exact captureCell_respond h ⟨rfl, rfl, rfl⟩
  | evClear mask => exact captureCell_respond h ⟨rfl, rfl, rfl⟩
  | evWait mask clearOnExit finite =>
    simp only [exec, execEvWait] at h
    split at h
    · exact captureCell_respond h (by cases clearOnExit <;> exact ⟨rfl, rfl, rfl⟩)
    · exact captureCell_waitOrExpire h
  | fsmSample valid angle =>
    simp only [exec, execFsmSample] at h
    split at h
    · split at h
      · exact captureCell_respond h (captureCell_sampleCenter s angle)
      all_goals exact captureCell_respond h (captureCell_sampleTurned s angle)
    · exact captureCell_respond h ⟨rfl, rfl, rfl⟩
  | canSend frame txFree =>
    simp only [exec, execCanSend] at h
    split at h
    · exact captureCell_respond h ⟨rfl, rfl, rfl⟩
    · split at h <;> exact captureCell_respond h ⟨rfl, rfl, rfl⟩

/-- A `RISE` that no full period precedes captures nothing (40_pwm_capture.md R133). -/
theorem execRise_hasNew_unarmed {s t : State} (ha : s.armed = false) (h : execRise s = .next t) :
    t.hasNew = s.hasNew := by
  unfold execRise at h
  split at h
  · cases h
  all_goals
    rw [respond_eq_next.mp h]
    simp [captureAtRise, ha]

/-! The statements -/

/-- Only `CAPTURE` and an armed `RISE` raise `has_new`: the other writers of the cell clear it. -/
theorem exec_raises_hasNew {i : Instr} {s t : State} (h : exec i s = .next t) (hs : s.hasNew = false)
    (ht : t.hasNew = true) :
    (∃ period pulse, i = .capture period pulse ∧ t.periodTicks = period ∧ t.pulseTicks = pulse)
      ∨ (i = .rise ∧ s.armed = true) := by
  cases hw : mayWrite i .captureCell
  case false =>
    obtain ⟨-, -, hnew⟩ := exec_keeps_captureCell hw h
    simp [hnew, hs] at ht
  case true =>
    cases i with
    | reset =>
      have hnew : t.hasNew = false := by rw [respond_eq_next.mp h]; rfl
      simp [hnew] at ht
    | getAngle => simp [execGetAngle_hasNew h] at ht
    | capture period pulse =>
      obtain rfl := respond_eq_next.mp h
      exact .inl ⟨period, pulse, rfl, rfl, rfl⟩
    | rise =>
      cases ha : s.armed
      case false => simp [execRise_hasNew_unarmed ha h, hs] at ht
      case true => exact .inr ⟨rfl, rfl⟩
    | _ => simp [mayWrite] at hw

/-- Settles O18: `GET_ANGLE` stops at its first check, and the cell's writers are looked through in turn. -/
theorem getAngleWithoutCaptureChangesNothing : Obligations.GetAngleWithoutCaptureChangesNothing :=
  ⟨fun _ => execGetAngle_noNewCapture, fun _ _ _ => exec_raises_hasNew⟩

/-- Settles O19: the filter's branches, and for an accepted pair the ranges that keep the decode from the endless
loop in either number domain. -/
theorem validityFilterAcceptsExactlyProperDuty : Obligations.ValidityFilterAcceptsExactlyProperDuty := by
  intro s hn
  refine ⟨execGetAngle_rejected hn, fun h0 h1 hinv => ?_⟩
  rw [exec_getAngle, execGetAngle_accepted hn h0 h1]
  cases hz : s.zeroInit
  case false =>
    obtain ⟨a, ha⟩ := takeZero_next h1
    exact ⟨_, ha, rfl, fun _ => ⟨rfl, rfl⟩, nofun⟩
  case true =>
    obtain ⟨rel, hrel⟩ := takeRelative_next h1 (hinv.zero.low hz) (hinv.zero.high hz)
    exact ⟨_, hrel, rfl, nofun, fun _ => ⟨rel, by rw [hz]⟩⟩

end Sys2Proof.Machine

/-! PROOFS. What `RX_FRAME` and `RECV_NB` answer, which operation fills an empty mailbox, and the statements O34 and
O35 of 43_can_receive.md R212 and R214. -/

namespace Sys2Proof

/-! The words of the two operations -/

/-- Byte `i` of an unpacked payload (20_memory.md R60). -/
theorem unpackPayload_getElem (d : BitVec 64) (i : Fin 8) :
    (unpackPayload d)[i] = d.extractLsb' (8 * i.val) 8 := by
  fin_cases i <;> rfl

/-- A byte of the frame's payload stands in the word at its offset from bit 43 (30_encoding.md R94). -/
theorem frameField_data_getElem (w : Word) (i : Fin 8) :
    (frameField w).data[i] = w.extractLsb' (43 + 8 * i.val) 8 := by
  have hfit : 8 * i.val + 8 ≤ 64 := by omega
  calc (frameField w).data[i]
      = (w.extractLsb' 43 64).extractLsb' (8 * i.val) 8 := unpackPayload_getElem _ i
    _ = w.extractLsb' (43 + 8 * i.val) 8 := by
      ext j hj
      simp [show 8 * i.val + j < 64 by omega, Nat.add_assoc]

theorem lengthLegal_iff {len : BitVec 4} : lengthLegal len = true ↔ len.toNat ≤ 8 := decide_eq_true_iff

/-- Selector 8 with a legal length is `RX_FRAME` of the word's frame (30_encoding.md R104, R111). -/
theorem decode_rxFrame {dom : NumDomain} {w : Word} {side : Rat} (hop : (selector w).toNat = 8)
    (hlen : (frameField w).len.toNat ≤ 8) : decode dom w side = .ok (.rxFrame (frameField w)) := by
  simp only [decode, hop, lengthLegal_iff.mpr hlen, if_true]

theorem decode_recvNb {dom : NumDomain} {w : Word} {side : Rat} (hop : (selector w).toNat = 9) :
    decode dom w side = .ok .recvNb := by
  simp only [decode, hop]

end Sys2Proof

namespace Sys2Proof.Machine

open Sys2Proof

/-! The answers of the two operations -/

/-- The notification reaches no element but `ev`. -/
theorem notifyFrame_frame (s : State) : notifyFrame s = { s with ev := (notifyFrame s).ev } := by
  unfold notifyFrame
  split <;> rfl

/-- A drain reaches the mailbox's flag and `ev` only: the frame itself stays. -/
theorem drainMailbox_frame (s : State) :
    drainMailbox s = { s with mbFull := false, ev := (drainMailbox s).ev } := by
  unfold drainMailbox unnotifyFrame
  split <;> rfl

/-- The overwriting in R212 is total: nothing of the frame before is left. -/
theorem exec_rxFrame_accepted {s : State} {f : Frame} (h : f.len.toNat ≤ 8) :
    exec (.rxFrame f) s
      = .next { notifyFrame { s with mb := f, mbFull := true } with resp := .empty } := by
  simp only [exec, execRxFrame, lengthLegal_iff.mpr h, if_true, storeFrame_eq, respond]

theorem exec_rxFrame_refused {s : State} {f : Frame} (h : 8 < f.len.toNat) :
    exec (.rxFrame f) s = .refused .frameLength := by
  have hlen : ¬ lengthLegal f.len = true := fun hl => by have := lengthLegal_iff.mp hl; omega
  simp only [exec, execRxFrame, if_neg hlen]

theorem exec_recvNb_empty {s : State} (h : s.mbFull = false) :
    exec .recvNb s = .next { s with resp := .frame none } := by
  simp [exec, execRecvNb, h, respond]

theorem exec_recvNb_full {s : State} (h : s.mbFull = true) :
    exec .recvNb s = .next { drainMailbox s with resp := .frame (some s.mb) } := by
  simp [exec, execRecvNb, h, respond]

/-- Whatever the mailbox held, it is empty after a `RECV_NB`. -/
theorem exec_recvNb_mbFull {s t : State} (h : exec .recvNb s = .next t) : t.mbFull = false := by
  cases hs : s.mbFull
  case false =>
    rw [exec_recvNb_empty hs] at h
    cases h
    exact hs
  case true =>
    rw [exec_recvNb_full hs] at h
    cases h
    exact drainMailbox_mbFull s

/-! What an operation builds its answer on, as far as the mailbox's flag goes -/

@[simp] theorem captureAtRise_mbFull (s : State) : (captureAtRise s).mbFull = s.mbFull := by
  unfold captureAtRise storeWrappedCapture
  split_ifs
  · split <;> rfl
  all_goals rfl

@[simp] theorem sampleCenter_mbFull (s : State) (angle : AnglePort) :
    (sampleCenter s angle).mbFull = s.mbFull := by
  simp only [sampleCenter]
  split_ifs <;> rfl

@[simp] theorem sampleTurned_mbFull (s : State) (angle : AnglePort) :
    (sampleTurned s angle).mbFull = s.mbFull := by
  simp only [sampleTurned]
  split_ifs <;> rfl

/-- A response is no part of the mailbox: an answer has the flag of the state it is built on. -/
theorem mbFull_respond {u t : State} {r : Response} {full : Bool} (h : respond u r = .next t)
    (hu : u.mbFull = full) : t.mbFull = full := by
  rw [respond_eq_next.mp h]
  exact hu

theorem mbFull_waitOrExpire {s t : State} {finite : Bool} {r : Response} {full : Bool}
    (h : waitOrExpire s finite r = .next t) (hs : s.mbFull = full) : t.mbFull = full := by
  rw [(waitOrExpire_next h).1]
  exact hs

theorem takeZero_mbFull {s t : State} (h : takeZero s = .next t) : t.mbFull = s.mbFull := by
  unfold takeZero at h
  split at h
  · cases h
  · exact mbFull_respond h rfl

theorem takeRelative_mbFull {s t : State} (h : takeRelative s = .next t) : t.mbFull = s.mbFull := by
  unfold takeRelative at h
  split at h
  · cases h
  · split at h
    · cases h
    · exact mbFull_respond h rfl

theorem execGetAngle_mbFull {s t : State} (h : execGetAngle s = .next t) : t.mbFull = s.mbFull := by
  unfold execGetAngle at h
  split at h
  case h_5 => exact takeZero_mbFull h
  case h_6 => exact takeRelative_mbFull h
  all_goals exact mbFull_respond h rfl

/-! Only `RX_FRAME` fills an empty mailbox -/

/-- The three readers find nothing to drain, `RESET` clears the flag, and the others leave it (10_state.md R37). -/
theorem exec_keeps_emptyMailbox {i : Instr} {s t : State} (hi : ∀ f, i ≠ .rxFrame f)
    (h : exec i s = .next t) (hs : s.mbFull = false) : t.mbFull = false := by
  cases i with
  | rxFrame frame => exact absurd rfl (hi frame)
  | reset => exact mbFull_respond h rfl
  | recvNb => exact exec_recvNb_mbFull h
  | recvBlk finite =>
    simp only [exec, execRecvBlk, hs] at h
    exact mbFull_waitOrExpire h hs
  | mdFetch finite =>
    simp only [exec, execMdFetch, hs] at h
    exact mbFull_waitOrExpire h hs
  | idle | tick | capture | evSet | evClear => exact mbFull_respond h hs
  | rise =>
    simp only [exec, execRise] at h
    split at h
    · cases h
    all_goals exact mbFull_respond h (by simp [hs])
  | fall =>
    simp only [exec, execFall] at h
    split at h
    · cases h
    all_goals exact mbFull_respond h hs
  | getAngle => exact (execGetAngle_mbFull h).trans hs
  | btSynth clockHz bitrateBps =>
    simp only [exec, execBtSynth] at h
    split at h <;> exact mbFull_respond h hs
  | mdApply =>
    simp only [exec, execMdApply] at h
    split at h
    · split at h
      · exact mbFull_respond h hs
      · exact mbFull_respond h (by simp [hs])
    · exact mbFull_respond h hs
  | evWait mask clearOnExit finite =>
    simp only [exec, execEvWait] at h
    split at h
    · exact mbFull_respond h (by cases clearOnExit <;> exact hs)
    · exact mbFull_waitOrExpire h hs
  | fsmSample valid angle =>
    simp only [exec, execFsmSample] at h
    split at h
    · split at h <;> exact mbFull_respond h (by simp [hs])
    · exact mbFull_respond h hs
  | canSend frame txFree =>
    simp only [exec, execCanSend] at h
    split_ifs at h <;> exact mbFull_respond h hs

theorem exec_fills_mailbox {i : Instr} {s t : State} (h : exec i s = .next t) (hs : s.mbFull = false)
    (ht : t.mbFull = true) : ∃ f, i = .rxFrame f := by
  by_contra hno
  have hempty : t.mbFull = false := exec_keeps_emptyMailbox (fun f hf => hno ⟨f, hf⟩) h hs
  simp [hempty] at ht

/-! Runs of operations -/

/-- A run that answers is a first operation that answers and a run of the rest. -/
theorem runOps_cons_next {i : Instr} {rest : List Instr} {s t : State}
    (h : runOps (i :: rest) s = .next t) : ∃ u, exec i s = .next u ∧ runOps rest u = .next t := by
  unfold runOps at h
  split at h
  · exact ⟨_, ‹_›, h⟩
  all_goals cases h

/-- What every operation of a list keeps, a run of the list keeps. -/
theorem runOps_keeps {P : State → Prop} {ops : List Instr}
    (hop : ∀ i ∈ ops, ∀ s t, exec i s = .next t → P s → P t) {s t : State}
    (h : runOps ops s = .next t) (hs : P s) : P t := by
  induction ops generalizing s with
  | nil =>
    cases h
    exact hs
  | cons i rest ih =>
    obtain ⟨u, hu, hrest⟩ := runOps_cons_next h
    have hP : P u := hop i (by simp) s u hu hs
    exact ih (fun j hj => hop j (by simp [hj])) hrest hP

/-! The statements -/

/-- Settles O34: the word's fields, the total overwriting of the mailbox, and the length check. -/
theorem rxFrameOverwritesTheMailbox : Obligations.RxFrameOverwritesTheMailbox := by
  refine ⟨fun dom w side hop hlen => ?_, fun s f hlen => ?_, fun _ _ => exec_rxFrame_refused⟩
  · exact ⟨frameField w, decode_rxFrame hop hlen, rfl, rfl, rfl, rfl, frameField_data_getElem w⟩
  · refine ⟨_, exec_rxFrame_accepted hlen, readEv_notifyFrame _, ?_⟩
    rw [notifyFrame_frame]

/-- Settles O35: a read leaves the mailbox empty, and along a run without `RX_FRAME` it stays empty. -/
theorem recvNbDrainsTheMailboxOnce : Obligations.RecvNbDrainsTheMailboxOnce := by
  refine ⟨fun _ _ _ => decode_recvNb, fun _ => exec_recvNb_empty, fun s hs => ?_,
    fun _ _ _ => exec_fills_mailbox, fun ops s t hno hrun => ?_⟩
  · refine ⟨_, exec_recvNb_full hs, readEv_drainMailbox s, ?_, exec_recvNb_empty (drainMailbox_mbFull s)⟩
    rw [drainMailbox_frame]
  · obtain ⟨u, hu, hrest⟩ := runOps_cons_next hrun
    have hempty : t.mbFull = false :=
      runOps_keeps (P := fun v => v.mbFull = false)
        (fun i hi _ _ => exec_keeps_emptyMailbox (hno i hi)) hrest (exec_recvNb_mbFull hu)
    exact exec_recvNb_empty hempty

end Sys2Proof.Machine

/-! PROOFS. What `MD_FETCH` answers on a full mailbox and `MD_APPLY` on a latched frame that is dropped, and the
statement O40 of 44_can_mode_decode.md R233. -/

namespace Sys2Proof.Machine

open Sys2Proof

/-- The check for a remote frame comes first: neither the length nor the payload is looked at (R321). -/
theorem decodeMode_remote {cfg : Config} {f : Frame} (h : f.rtr = true) :
    decodeMode cfg f = .error .remoteFrame := if_pos h

/-- On a full mailbox `MD_FETCH` drains as a read does, and latches the frame it answers (R231). -/
theorem exec_mdFetch_full {s : State} {finite : Bool} (h : s.mbFull = true) :
    exec (.mdFetch finite) s
      = .next { drainMailbox s with md := s.mb, mdHave := true, resp := .frame (some s.mb) } := by
  simp only [exec, execMdFetch, h, if_true, respond]

/-- A dropped frame leaves the latch empty and every flag as it is, whatever the reason (R232). -/
theorem exec_mdApply_dropped {s : State} {r : ModeDrop} (h : s.mdHave = true)
    (hd : decodeMode s.cfg s.md = .error r) :
    exec .mdApply s = .next { s with mdHave := false, resp := .empty } := by
  simp only [exec, execMdApply, h, if_true, hd, respond]

theorem exec_mdApply_remote {s : State} (h : s.mdHave = true) (hr : s.md.rtr = true) :
    exec .mdApply s = .next { s with mdHave := false, resp := .empty } :=
  exec_mdApply_dropped h (decodeMode_remote hr)

/-- Settles O40: the store and the drain do not look at `rtr`, and the decoder looks at nothing else. -/
theorem remoteFramesAreConsumedAndDropped : Obligations.RemoteFramesAreConsumedAndDropped := by
  refine ⟨fun _ => exec_mdApply_remote, fun s f finite hr hlen => ?_⟩
  have hmb : (notifyFrame { s with mb := f, mbFull := true }).mb = f := notifyFrame_mb _
  have hfull : (notifyFrame { s with mb := f, mbFull := true }).mbFull = true := notifyFrame_mbFull _
  exact ⟨_, _, _, exec_rxFrame_accepted hlen, hmb, hfull,
    exec_mdFetch_full hfull, hmb, rfl, drainMailbox_mbFull _,
    exec_mdApply_remote rfl ((congrArg Frame.rtr hmb).trans hr), rfl, rfl⟩

end Sys2Proof.Machine

/-! PROOFS. Operation words: each selector's decoding, the word of a decoded operation, and the statements O1 to O5
of 30_encoding.md sections 1, 4 and 5. -/

namespace Sys2Proof

/-! The decoder, selector by selector (30_encoding.md R104) -/

section Selectors
variable {dom : NumDomain} {w : Word} {side : Rat}

theorem decode_idle (h : (selector w).toNat = 0) : decode dom w side = .ok .idle := by
  simp only [decode, h]
theorem decode_reset (h : (selector w).toNat = 1) : decode dom w side = .ok .reset := by
  simp only [decode, h]
theorem decode_tick (h : (selector w).toNat = 2) : decode dom w side = .ok .tick := by
  simp only [decode, h]
theorem decode_rise (h : (selector w).toNat = 3) : decode dom w side = .ok .rise := by
  simp only [decode, h]
theorem decode_fall (h : (selector w).toNat = 4) : decode dom w side = .ok .fall := by
  simp only [decode, h]
theorem decode_capture (h : (selector w).toNat = 5) :
    decode dom w side = .ok (.capture (field w 5 32) (field w 37 32)) := by
  simp only [decode, h]
theorem decode_getAngle (h : (selector w).toNat = 6) : decode dom w side = .ok .getAngle := by
  simp only [decode, h]
theorem decode_btSynth (h : (selector w).toNat = 7) :
    decode dom w side = .ok (.btSynth (field w 5 32) (field w 37 32)) := by
  simp only [decode, h]
theorem decode_rxFrame_error (h : (selector w).toNat = 8) (hlen : 8 < (frameField w).len.toNat) :
    decode dom w side = .error (.frameLength (frameField w).len) := by
  have hno : ¬ lengthLegal (frameField w).len = true := fun hl => by
    have := lengthLegal_iff.mp hl
    omega
  simp only [decode, h, if_neg hno]
theorem decode_recvBlk (h : (selector w).toNat = 10) :
    decode dom w side = .ok (.recvBlk (flag w 5)) := by
  simp only [decode, h]
theorem decode_mdFetch (h : (selector w).toNat = 11) :
    decode dom w side = .ok (.mdFetch (flag w 5)) := by
  simp only [decode, h]
theorem decode_mdApply (h : (selector w).toNat = 12) : decode dom w side = .ok .mdApply := by
  simp only [decode, h]
theorem decode_evSet (h : (selector w).toNat = 13) :
    decode dom w side = .ok (.evSet (field w 5 8)) := by
  simp only [decode, h]
theorem decode_evClear (h : (selector w).toNat = 14) :
    decode dom w side = .ok (.evClear (field w 5 8)) := by
  simp only [decode, h]
theorem decode_evWait (h : (selector w).toNat = 15) :
    decode dom w side = .ok (.evWait (field w 5 8) (flag w 13) (flag w 14)) := by
  simp only [decode, h]
theorem decode_fsmSample (h : (selector w).toNat = 16) :
    decode dom w side = .ok (.fsmSample (flag w 5) (angleField dom w side)) := by
  simp only [decode, h]
theorem decode_canSend (h : (selector w).toNat = 17) :
    decode dom w side = .ok (.canSend (frameField w) (flag w 107)) := by
  simp only [decode, h]

theorem decode_reserved (h : 18 ≤ (selector w).toNat) :
    decode dom w side = .error (.reservedSelector (selector w)) := by
  unfold decode
  split
  case h_19 => rfl
  all_goals omega

end Selectors

/-! Decode of encode -/

/-- The word of an operation carries its selector (30_encoding.md R90). -/
theorem selector_encode (i : Instr) : selector (encode i) = selectorOf i := by
  cases i with
  | capture period pulse => exact Laws.NamesItsSelector.capture period pulse
  | btSynth clockHz bitrateBps => exact Laws.NamesItsSelector.btSynth clockHz bitrateBps
  | rxFrame frame => exact Laws.NamesItsSelector.rxFrame frame
  | recvBlk finite => exact Laws.NamesItsSelector.recvBlk finite
  | mdFetch finite => exact Laws.NamesItsSelector.mdFetch finite
  | evSet mask => exact Laws.NamesItsSelector.evSet mask
  | evClear mask => exact Laws.NamesItsSelector.evClear mask
  | evWait mask clearOnExit finite => exact Laws.NamesItsSelector.evWait mask clearOnExit finite
  | fsmSample valid angle => exact Laws.NamesItsSelector.fsmSample valid angle
  | canSend frame txFree => exact Laws.NamesItsSelector.canSend frame txFree
  | idle | reset | tick | rise | fall | getAngle | recvNb | mdApply => rfl

theorem selector_encode_toNat {i : Instr} {n : Nat} (h : (selectorOf i).toNat = n) :
    (selector (encode i)).toNat = n := by
  rw [selector_encode, h]

/-- The frame of `RX_FRAME` stands in its word (30_encoding.md R94). -/
theorem frameField_encode_rxFrame (f : Frame) : frameField (encode (.rxFrame f)) = f := by
  rw [encode, formatF_setWidth]
  exact (formatF_fields _ _ _).1

theorem flag_canSend (f : Frame) (txFree : Bool) : flag (encode (.canSend f txFree)) 107 = txFree := by
  have htop : field (encode (.canSend f txFree)) 107 1 = BitVec.ofBool txFree := (formatF_fields _ _ _).2.2
  calc flag (encode (.canSend f txFree)) 107
      = (field (encode (.canSend f txFree)) 107 1).getLsbD 0 := by simp [field, flag]
    _ = txFree := by rw [htop]; simp

/-- The angle operand survives the word or the side port of its number domain (30_encoding.md R96). -/
theorem angleField_encode {dom : NumDomain} {valid : Bool} {a : AnglePort} (h : angleFits dom a = true) :
    flag (encode (.fsmSample valid a)) 5 = valid
      ∧ angleField dom (encode (.fsmSample valid a)) (sidePort (.fsmSample valid a)) = a := by
  cases dom <;> cases a <;> simp only [angleFits, Bool.false_eq_true] at h
  case rational.rational q => exact ⟨(formatT_fields _ _).2, rfl⟩
  case binary32.binary32 bits =>
    obtain ⟨-, hvalid, hbits⟩ := formatS32_fields 0x10 valid bits
    exact ⟨hvalid, congrArg AnglePort.binary32 hbits⟩

theorem decode_encode {dom : NumDomain} {i : Instr} (h : WellFormed dom i = true) :
    decode dom (encode i) (sidePort i) = .ok i := by
  cases i with
  | idle => exact decode_idle rfl
  | reset => exact decode_reset rfl
  | tick => exact decode_tick rfl
  | rise => exact decode_rise rfl
  | fall => exact decode_fall rfl
  | getAngle => exact decode_getAngle rfl
  | recvNb => exact decode_recvNb rfl
  | mdApply => exact decode_mdApply rfl
  | capture period pulse =>
    obtain ⟨-, hperiod, hpulse⟩ := formatC_fields 0x05 period pulse
    rw [decode_capture (selector_encode_toNat rfl), encode, selectorOf, hperiod, hpulse]
  | btSynth clockHz bitrateBps =>
    obtain ⟨-, hclock, hrate⟩ := formatC_fields 0x07 clockHz bitrateBps
    rw [decode_btSynth (selector_encode_toNat rfl), encode, selectorOf, hclock, hrate]
  | rxFrame frame =>
    have hlen : (frameField (encode (.rxFrame frame))).len.toNat ≤ 8 := by
      rw [frameField_encode_rxFrame]
      exact lengthLegal_iff.mp h
    rw [decode_rxFrame (selector_encode_toNat rfl) hlen, frameField_encode_rxFrame]
  | recvBlk finite =>
    rw [decode_recvBlk (selector_encode_toNat rfl), encode, (formatT_fields _ finite).2]
  | mdFetch finite =>
    rw [decode_mdFetch (selector_encode_toNat rfl), encode, (formatT_fields _ finite).2]
  | evSet mask =>
    rw [decode_evSet (selector_encode_toNat rfl), encode, (formatM_fields _ mask _ _).2.1]
  | evClear mask =>
    rw [decode_evClear (selector_encode_toNat rfl), encode, (formatM_fields _ mask _ _).2.1]
  | evWait mask clearOnExit finite =>
    obtain ⟨-, hmask, hclear, hfinite⟩ := formatM_fields 0x0F mask clearOnExit finite
    rw [decode_evWait (selector_encode_toNat rfl), encode, selectorOf, hmask, hclear, hfinite]
  | fsmSample valid angle =>
    obtain ⟨hvalid, hangle⟩ := angleField_encode (valid := valid) h
    rw [decode_fsmSample (selector_encode_toNat rfl), hvalid, hangle]
  | canSend frame txFree =>
    rw [decode_canSend (selector_encode_toNat rfl), flag_canSend, encode, (formatF_fields _ _ _).1]

/-- Settles O1: each format gives its fields back. -/
theorem decodeOfEncodeIsTheOperation : Obligations.DecodeOfEncodeIsTheOperation :=
  fun _ _ => decode_encode

/-! Encode of decode: adjacent fields of one word join to one field -/

theorem extract_join {N n : Nat} (x : BitVec N) (lo m : Nat) :
    x.extractLsb' (lo + m) n ++ x.extractLsb' lo m = x.extractLsb' lo (n + m) := by
  ext j hj
  simp only [BitVec.getElem_append, BitVec.getElem_extractLsb']
  split_ifs with hjm
  · simp
  · rw [show lo + m + (j - m) = lo + j by omega]

theorem field_join {n : Nat} (w : Word) (lo m : Nat) :
    field w (lo + m) n ++ field w lo m = field w lo (n + m) := extract_join w lo m

theorem ofBool_flag (w : Word) (k : Nat) : BitVec.ofBool (flag w k) = field w k 1 := by
  ext j hj
  obtain rfl : j = 0 := by omega
  simp [field, flag]

theorem pack_unpack (d : BitVec 64) : packPayload (unpackPayload d) = d := by
  have h : d.extractLsb' 56 8 ++ d.extractLsb' 48 8 ++ d.extractLsb' 40 8 ++ d.extractLsb' 32 8
      ++ d.extractLsb' 24 8 ++ d.extractLsb' 16 8 ++ d.extractLsb' 8 8 ++ d.extractLsb' 0 8
      = d.extractLsb' 0 64 := by
    rw [extract_join d 48 8, extract_join d 40 8, extract_join d 32 8, extract_join d 24 8,
      extract_join d 16 8, extract_join d 8 8, extract_join d 0 8]
  exact h.trans (extract_whole d 0 rfl)

/-- A widened field from bit 0 holds the bits of the word below its width. -/
theorem getLsbD_setWidth_field {n : Nat} (w : Word) {b : Nat} (hb : b < 108) :
    ((field w 0 n).setWidth 108).getLsbD b = (w.getLsbD b && decide (b < n)) := by
  simp [field, hb, Bool.and_comm]

/-! The word each format makes of the fields of a word: the word below the format's width -/

section Joins
variable {w : Word} {op : BitVec 5}

theorem formatT_join (hop : op = selector w) : formatT op (flag w 5) = (field w 0 6).setWidth 108 := by
  have h : field w 5 1 ++ field w 0 5 = field w 0 6 := field_join w 0 5
  rw [formatT, ofBool_flag, hop]
  exact congrArg (BitVec.setWidth 108) h

theorem formatC_join (hop : op = selector w) :
    formatC op (field w 5 32) (field w 37 32) = (field w 0 69).setWidth 108 := by
  have h : field w 37 32 ++ field w 5 32 ++ field w 0 5 = field w 0 69 := by
    rw [field_join w 5 32, field_join w 0 5]
  rw [hop]
  exact congrArg (BitVec.setWidth 108) h

theorem formatS32_join (hop : op = selector w) :
    formatS32 op (flag w 5) (field w 6 32) = (field w 0 38).setWidth 108 := by
  have h : field w 6 32 ++ field w 5 1 ++ field w 0 5 = field w 0 38 := by
    rw [field_join w 5 1, field_join w 0 5]
  rw [formatS32, ofBool_flag, hop]
  exact congrArg (BitVec.setWidth 108) h

theorem formatM_join (hop : op = selector w) :
    formatM op (field w 5 8) (flag w 13) (flag w 14) = (field w 0 15).setWidth 108 := by
  have h : field w 14 1 ++ field w 13 1 ++ field w 5 8 ++ field w 0 5 = field w 0 15 := by
    rw [field_join w 13 1, field_join w 5 8, field_join w 0 5]
  rw [formatM, ofBool_flag, ofBool_flag, hop]
  exact congrArg (BitVec.setWidth 108) h

/-- With both flags down, format M is its mask above its selector. -/
theorem formatM_mask (op : BitVec 5) (m : Byte) :
    formatM op m false false = (m ++ op : BitVec 13).setWidth 108 := by
  ext j hj
  simp only [formatM, BitVec.getElem_setWidth, BitVec.getLsbD_append]
  split_ifs with hop hm hc
  · rfl
  · rfl
  all_goals
    rw [BitVec.getLsbD_of_ge m _ (by omega)]
    simp

theorem formatM_mask_join (hop : op = selector w) :
    formatM op (field w 5 8) false false = (field w 0 13).setWidth 108 := by
  have h : field w 5 8 ++ field w 0 5 = field w 0 13 := field_join w 0 5
  rw [formatM_mask, hop]
  exact congrArg (BitVec.setWidth 108) h

theorem formatF_join (hop : op = selector w) : formatF op (frameField w) = field w 0 107 := by
  have h : field w 43 64 ++ field w 39 4 ++ field w 38 1 ++ field w 37 1 ++ field w 5 32 ++ field w 0 5
      = field w 0 107 := by
    rw [field_join w 39 4, field_join w 38 1, field_join w 37 1, field_join w 5 32, field_join w 0 5]
  rw [formatF, frameField, pack_unpack, ofBool_flag, ofBool_flag, hop]
  exact h

end Joins

/-! The significant bits of a word -/

/-- The width of a word's format less the ignored bits 14:13 of `EV_SET` and `EV_CLEAR` (30_encoding.md R90, R95). -/
def significantWidth (dom : NumDomain) (op : BitVec 5) : Nat :=
  if op = 0x0D ∨ op = 0x0E then 13 else formatWidth dom op

theorem decode_rxFrame_length {dom : NumDomain} {w : Word} {side : Rat} {f : Frame}
    (h : decode dom w side = .ok (.rxFrame f)) : (frameField w).len.toNat ≤ 8 := by
  have hop : (selector w).toNat = 8 := by rw [← decode_selector h]; rfl
  by_contra hlen
  cases (decode_rxFrame_error hop (by omega)).symm.trans h

/-- Whatever the decoder gives, the interface can carry (30_encoding.md R111). -/
theorem wellFormed_of_decode {dom : NumDomain} {w : Word} {side : Rat} {i : Instr}
    (h : decode dom w side = .ok i) : WellFormed dom i = true := by
  have hop : (selector w).toNat = (selectorOf i).toNat := by rw [decode_selector h]
  cases i with
  | rxFrame f =>
    have hlen := decode_rxFrame_length h
    cases (decode_rxFrame hop hlen).symm.trans h
    exact lengthLegal_iff.mpr hlen
  | fsmSample valid angle =>
    cases (decode_fsmSample hop).symm.trans h
    cases dom <;> rfl
  | _ => rfl

/-- A decoded operation's word is the word decoded, cut at its significant width. -/
theorem encode_decode {dom : NumDomain} {w : Word} {side : Rat} {i : Instr} (h : decode dom w side = .ok i) :
    encode i = (field w 0 (significantWidth dom (selector w))).setWidth 108 := by
  have hsel := decode_selector h
  have hop : (selector w).toNat = (selectorOf i).toNat := by rw [hsel]
  have hwidth : significantWidth dom (selector w) = significantWidth dom (selectorOf i) := by rw [hsel]
  rw [hwidth]
  cases i with
  | idle | reset | tick | rise | fall | getAngle | recvNb | mdApply => exact congrArg (BitVec.setWidth 108) hsel
  | capture period pulse =>
    injection (decode_capture hop).symm.trans h with hi
    cases hi
    exact formatC_join hsel
  | btSynth clockHz bitrateBps =>
    injection (decode_btSynth hop).symm.trans h with hi
    cases hi
    exact formatC_join hsel
  | rxFrame frame =>
    injection (decode_rxFrame hop (decode_rxFrame_length h)).symm.trans h with hi
    cases hi
    exact congrArg (BitVec.setWidth 108) (formatF_join hsel)
  | recvBlk finite =>
    injection (decode_recvBlk hop).symm.trans h with hi
    cases hi
    exact formatT_join hsel
  | mdFetch finite =>
    injection (decode_mdFetch hop).symm.trans h with hi
    cases hi
    exact formatT_join hsel
  | evSet mask =>
    injection (decode_evSet hop).symm.trans h with hi
    cases hi
    exact formatM_mask_join hsel
  | evClear mask =>
    injection (decode_evClear hop).symm.trans h with hi
    cases hi
    exact formatM_mask_join hsel
  | evWait mask clearOnExit finite =>
    injection (decode_evWait hop).symm.trans h with hi
    cases hi
    exact formatM_join hsel
  | fsmSample valid angle =>
    injection (decode_fsmSample hop).symm.trans h with hi
    cases hi
    cases dom with
    | rational => exact formatT_join hsel
    | binary32 => exact formatS32_join hsel
  | canSend frame txFree =>
    injection (decode_canSend hop).symm.trans h with hi
    cases hi
    have hjoin : field w 107 1 ++ field w 0 107 = field w 0 108 := field_join w 0 107
    rw [encode, formatF_join hsel, ofBool_flag]
    exact hjoin.trans (BitVec.setWidth_eq _).symm

/-- Settles O2: the encoder puts the decoded fields back where they stood. -/
theorem encodeOfDecodeKeepsEverySignificantBit : Obligations.EncodeOfDecodeKeepsEverySignificantBit := by
  intro dom w side i h
  refine ⟨wellFormed_of_decode h, fun b hb => ?_, ?_⟩
  · rw [encode_decode h, getLsbD_setWidth_field w hb]
    rfl
  · rintro rfl hop
    have hop' : (selector w).toNat = 16 := by rw [hop]; rfl
    cases (decode_fsmSample hop').symm.trans h
    rfl

/-! Words that agree below the width of the format -/

section Agreement
variable {w v : Word} {n : Nat}

theorem field_congr (h : ∀ b, b < n → w.getLsbD b = v.getLsbD b) (lo k : Nat) (hfit : lo + k ≤ n) :
    field v lo k = field w lo k := by
  ext j hj
  simp only [field, BitVec.getElem_extractLsb']
  exact (h (lo + j) (by omega)).symm

theorem flag_congr (h : ∀ b, b < n → w.getLsbD b = v.getLsbD b) (k : Nat) (hfit : k < n) : flag v k = flag w k :=
  (h k hfit).symm

theorem frameField_congr (h : ∀ b, b < n → w.getLsbD b = v.getLsbD b) (hfit : 107 ≤ n) :
    frameField v = frameField w := by
  rw [frameField, frameField, field_congr h 5 32 (by omega), field_congr h 39 4 (by omega),
    field_congr h 43 64 (by omega), flag_congr h 37 (by omega), flag_congr h 38 (by omega)]

end Agreement

theorem five_le_formatWidth (dom : NumDomain) (op : BitVec 5) : 5 ≤ formatWidth dom op := by
  cases dom <;> revert op <;> decide

/-- The decoder looks at no bit above the width of the format (30_encoding.md R90). -/
theorem decode_congr {dom : NumDomain} {w v : Word} {side : Rat}
    (h : ∀ b, b < formatWidth dom (selector w) → w.getLsbD b = v.getLsbD b) :
    decode dom v side = decode dom w side := by
  have hsel : selector v = selector w := field_congr h 0 5 (five_le_formatWidth dom _)
  unfold decode
  rw [hsel]
  unfold formatWidth at h
  split <;> rename_i hop <;> simp only [hop] at h
  case h_6 | h_8 => rw [field_congr h 5 32 (by omega), field_congr h 37 32 (by omega)]
  case h_9 => rw [frameField_congr h (by omega)]
  case h_11 | h_12 => rw [flag_congr h 5 (by omega)]
  case h_14 | h_15 => rw [field_congr h 5 8 (by omega)]
  case h_16 => rw [field_congr h 5 8 (by omega), flag_congr h 13 (by omega), flag_congr h 14 (by omega)]
  case h_17 =>
    cases dom with
    | rational => rw [flag_congr h 5 (by decide), angleField, angleField]
    | binary32 => rw [flag_congr h 5 (by decide), angleField, angleField, field_congr h 6 32 (by decide)]
  case h_18 => rw [frameField_congr h (by omega), flag_congr h 107 (by omega)]
  all_goals rfl

/-- Settles O4: the selector is within every format, and each format's fields are within its width. -/
theorem bitsAboveTheFormatAreIgnored : Obligations.BitsAboveTheFormatAreIgnored :=
  fun _ _ _ _ => decode_congr

/-! The words the decoder rejects -/

/-- Every selector of the table names an operation, `RX_FRAME` if its length is legal (30_encoding.md R109, R111). -/
theorem decode_accepts {dom : NumDomain} {w : Word} {side : Rat} (hop : (selector w).toNat < 18)
    (hlen : (selector w).toNat = 8 → (frameField w).len.toNat ≤ 8) : ∃ i, decode dom w side = .ok i := by
  cases hd : decode dom w side with
  | ok i => exact ⟨i, rfl⟩
  | error e =>
    unfold decode at hd
    split at hd
    case h_9 h8 =>
      rw [if_pos (lengthLegal_iff.mpr (hlen h8))] at hd
      cases hd
    case h_19 =>
      simp only [imp_false] at *
      omega
    all_goals cases hd

/-- Settles O3. -/
theorem decoderRejectsExactlyTheReservedWords : Obligations.DecoderRejectsExactlyTheReservedWords :=
  fun _ _ _ => ⟨decode_reserved, decode_rxFrame_error, decode_accepts⟩

/-- Settles O5: the decoder evaluates on the literal words. -/
theorem sampleWordsDecode : Obligations.SampleWordsDecode := by
  unfold Obligations.SampleWordsDecode
  decide +kernel

end Sys2Proof

/-! PROOFS. What the timer front end, the capture interrupt, `IDLE`, `CAN_SEND` and a wait answer, and the statements
O10 to O17, O52, O53 and O59 of 40_pwm_capture.md section 2, 20_memory.md section 11 and 60_exceptions.md R324. -/

namespace Sys2Proof.Machine

open Sys2Proof

/-! The answers of the operations that have one branch -/

theorem exec_idle (s : State) : exec .idle s = .next { s with resp := .empty } := rfl

theorem exec_tick (s : State) :
    exec .tick s = .next { s with
      cnt := nextCount s.cfg s.cnt
      wrapped := s.wrapped || decide (2 ^ s.cfg.cntW ≤ s.cnt.toNat + 1)
      resp := .empty } := rfl

theorem exec_capture (period pulse : U32) (s : State) :
    exec (.capture period pulse) s
      = .next { s with periodTicks := period, pulseTicks := pulse, hasNew := true, resp := .empty } := rfl

/-- Settles O53. -/
theorem idleChangesNothing : Obligations.IdleChangesNothing := exec_idle

/-- Settles O11: the width of `cnt` is at most that of the register that holds it. -/
theorem tickCountsModuloTheCounterWidth : Obligations.TickCountsModuloTheCounterWidth :=
  fun s hw => ⟨_, exec_tick s, nextCount_toNat hw s.cnt, by simp, rfl⟩

/-! `CAN_SEND` -/

theorem exec_canSend_ok {s : State} {f : Frame} {txFree : Bool} (hlen : f.len.toNat ≤ 8) (hfree : txFree = true) :
    exec (.canSend f txFree) s = .next { s with resp := .sent (some f) } := by
  simp only [exec, execCanSend, if_neg (show ¬ 8 < f.len.toNat by omega), hfree, Bool.true_eq_false, if_false, respond]

theorem exec_canSend_failed {s : State} {f : Frame} {txFree : Bool} (h : 8 < f.len.toNat ∨ txFree = false) :
    exec (.canSend f txFree) s = .next { s with resp := .sent none } := by
  simp only [exec, execCanSend, respond]
  split_ifs with hlen hfree
  · rfl
  · rfl
  · exact absurd h (not_or.mpr ⟨hlen, hfree⟩)

/-- Settles O52: the length is checked before the slot (R314). -/
theorem canSendAnswersAndChangesNothing : Obligations.CanSendAnswersAndChangesNothing :=
  fun _ _ _ => ⟨exec_canSend_ok, exec_canSend_failed⟩

/-! The edges of the pin -/

theorem exec_rise_accepted {s : State} (h : s.lvl ≠ .high) :
    exec .rise s = .next { latchRise (captureAtRise s) with resp := .empty } := by
  cases hl : s.lvl with
  | high => exact absurd hl h
  | low | unknown => simp only [exec, execRise, hl, respond]

theorem exec_rise_refused {s : State} (h : s.lvl = .high) : exec .rise s = .refused .riseWhileHigh := by
  simp only [exec, execRise, h]

theorem exec_fall_accepted {s : State} (h : s.lvl ≠ .low) :
    exec .fall s = .next { s with ccrPulse := s.cnt, lvl := .low, resp := .empty } := by
  cases hl : s.lvl with
  | low => exact absurd hl h
  | high | unknown => simp only [exec, execFall, hl, respond]

theorem exec_fall_refused {s : State} (h : s.lvl = .low) : exec .fall s = .refused .fallWhileLow := by
  simp only [exec, execFall, h]

/-- Before the first full period there is nothing to capture (R133). -/
theorem captureAtRise_unarmed {s : State} (h : s.armed = false) : captureAtRise s = s := by
  simp [captureAtRise, h]

/-- The pair a `RISE` captures: the counter and the latched pulse, also after a wrap where the configuration takes
the residues (R133, R139). -/
theorem captureAtRise_armed {s : State} (h : s.armed = true)
    (hw : s.wrapped = false ∨ s.cfg.wrappedPair = .residues) :
    captureAtRise s = storeCapture s s.cnt s.ccrPulse := by
  rw [captureAtRise, if_pos h]
  split_ifs with hwrap
  · have hres : s.cfg.wrappedPair = .residues := hw.resolve_left (by simp [hwrap])
    simp only [storeWrappedCapture, hres]
  · rfl

theorem captureAtRise_free {s : State} (h : s.armed = true) (hw : s.wrapped = true)
    (hp : s.cfg.wrappedPair = .anyPair) :
    captureAtRise s = { s with
      periodTicks := Config.freeU32 s.draws
      pulseTicks := Config.freeU32 (s.draws + 1)
      hasNew := true
      draws := s.draws + 2 } := by
  simp only [captureAtRise, h, hw, if_true, storeWrappedCapture, hp, storeCapture]

/-- An armed `RISE` with a pair to capture, in full. -/
theorem exec_rise_captures {s : State} (hl : s.lvl ≠ .high) (ha : s.armed = true)
    (hw : s.wrapped = false ∨ s.cfg.wrappedPair = .residues) :
    exec .rise s = .next { s with
      ccrPeriod := s.cnt, cnt := 0, lvl := .high, wrapped := false, periodTicks := s.cnt,
      pulseTicks := s.ccrPulse, hasNew := true, resp := .empty } := by
  rw [exec_rise_accepted hl, captureAtRise_armed ha hw]
  simp only [latchRise, storeCapture, ha]

/-- Settles O12: the four cases of what is captured before the counter restarts. -/
theorem riseLatchesThePeriodAndRestarts : Obligations.RiseLatchesThePeriodAndRestarts := by
  intro s
  refine ⟨fun hl ha => ?_, exec_rise_captures, fun hl ha hw hp => ?_, exec_rise_refused⟩
  · rw [exec_rise_accepted hl, captureAtRise_unarmed ha, latchRise]
  · refine ⟨Config.freeU32 s.draws, Config.freeU32 (s.draws + 1), ?_⟩
    rw [exec_rise_accepted hl, captureAtRise_free ha hw hp]
    simp only [latchRise, ha]

/-- Settles O13. -/
theorem fallLatchesThePulseWidth : Obligations.FallLatchesThePulseWidth :=
  fun _ => ⟨exec_fall_accepted, exec_fall_refused⟩

/-- Settles O14: neither handler looks at what its cell holds. -/
theorem interruptWritesNeverBlockOrFail : Obligations.InterruptWritesNeverBlockOrFail :=
  fun s period pulse _ => ⟨exec_capture period pulse s, fun hlen =>
    ⟨_, exec_rxFrame_accepted hlen, notifyFrame_mb _, notifyFrame_mbFull _, rfl⟩⟩

/-! Runs of operations -/

theorem runOps_cons {i : Instr} {rest : List Instr} {s u : State} (h : exec i s = .next u) :
    runOps (i :: rest) s = runOps rest u := by
  simp only [runOps, h]

theorem runOps_cons_refused {i : Instr} {rest : List Instr} {s : State} {e : Refusal}
    (h : exec i s = .refused e) : runOps (i :: rest) s = .refused e := by
  simp only [runOps, h]

theorem runOps_append {ops rest : List Instr} {s u : State} (h : runOps ops s = .next u) :
    runOps (ops ++ rest) s = runOps rest u := by
  induction ops generalizing s with
  | nil =>
    cases h
    rfl
  | cons i ops ih =>
    obtain ⟨v, hv, hrun⟩ := runOps_cons_next h
    rw [List.cons_append, runOps_cons hv, ih hrun]

/-- Settles O59: the cells are disjoint, and the notification looks at neither. -/
theorem handlersCommute : Obligations.HandlersCommute := by
  intro s period pulse f
  rw [runOps_cons (exec_capture period pulse s)]
  by_cases hlen : f.len.toNat ≤ 8
  · rw [runOps_cons (exec_rxFrame_accepted hlen), runOps_cons (exec_rxFrame_accepted hlen),
      runOps_cons (exec_capture period pulse _), notifyFrame, notifyFrame]
    split_ifs <;> rfl
  · rw [runOps_cons_refused (exec_rxFrame_refused (by omega)), runOps_cons_refused (exec_rxFrame_refused (by omega))]

/-! Periods of the pin -/

/-- `TICKS n` from a counter in range: the count modulo the width, the wrap noted, and nothing else (R132). -/
theorem runOps_ticks {s : State} (n : Nat) (hw : s.cfg.cntW ≤ 32) (hc : s.cnt.toNat < 2 ^ s.cfg.cntW) :
    ∃ t, runOps (ticksOps n) s = .next t
      ∧ t.cnt.toNat = (s.cnt.toNat + n) % 2 ^ s.cfg.cntW
      ∧ (s.wrapped = false → s.cnt.toNat + n < 2 ^ s.cfg.cntW → t.wrapped = false)
      ∧ t = { s with cnt := t.cnt, wrapped := t.wrapped, resp := t.resp } := by
  induction n generalizing s with
  | zero => exact ⟨s, rfl, (Nat.mod_eq_of_lt hc).symm, fun h _ => h, rfl⟩
  | succ n ih =>
    have hnext := nextCount_toNat hw s.cnt
    have hlt : (nextCount s.cfg s.cnt).toNat < 2 ^ s.cfg.cntW := by
      rw [hnext]
      exact Nat.mod_lt _ (by positivity)
    obtain ⟨t, hrun, hcnt, hwrap, hframe⟩ := ih
      (s := { s with
        cnt := nextCount s.cfg s.cnt
        wrapped := s.wrapped || decide (2 ^ s.cfg.cntW ≤ s.cnt.toNat + 1)
        resp := .empty }) hw hlt
    refine ⟨t, (runOps_cons (exec_tick s)).trans hrun, ?_, fun hs hsum => hwrap ?_ ?_, hframe⟩
    · rw [hcnt]
      simp only [hnext, Nat.mod_add_mod]
      congr 1
      omega
    · simp [hs, show s.cnt.toNat + 1 < 2 ^ s.cfg.cntW by omega]
    · simp only [hnext]
      rw [Nat.mod_eq_of_lt (by omega)]
      omega

@[simp] theorem captureAtRise_cfg (s : State) : (captureAtRise s).cfg = s.cfg := by
  unfold captureAtRise storeWrappedCapture
  split_ifs
  · split <;> rfl
  all_goals rfl

/-- A period up to its closing edge: what the last `RISE` finds (R132 to R134). -/
theorem runOps_period {s : State} (a b : Nat) (hw : s.cfg.cntW ≤ 32) (hl : s.lvl ≠ .high) :
    ∃ t, runOps ([.rise] ++ ticksOps a ++ [.fall] ++ ticksOps b) s = .next t
      ∧ t.cnt.toNat = (a + b) % 2 ^ s.cfg.cntW ∧ t.ccrPulse.toNat = a % 2 ^ s.cfg.cntW
      ∧ t.lvl = .low ∧ t.armed = true ∧ t.cfg = s.cfg
      ∧ (a + b < 2 ^ s.cfg.cntW → t.wrapped = false) := by
  let start : State := { latchRise (captureAtRise s) with resp := .empty }
  have hstart : start.cfg = s.cfg := captureAtRise_cfg s
  obtain ⟨u, hup, hucnt, huwrap, huframe⟩ :=
    runOps_ticks (s := start) a (hstart ▸ hw) (show (0 : U32).toNat < _ by positivity)
  rw [hstart] at hucnt huwrap
  have hu : u.cfg = s.cfg ∧ u.lvl = .high ∧ u.armed = true := by
    rw [huframe]
    exact ⟨hstart, rfl, rfl⟩
  obtain ⟨hucfg, hul, hua⟩ := hu
  have hucnt' : u.cnt.toNat = a % 2 ^ s.cfg.cntW := by simpa [start] using hucnt
  let low : State := { u with ccrPulse := u.cnt, lvl := .low, resp := .empty }
  obtain ⟨t, hdown, htcnt, htwrap, htframe⟩ :=
    runOps_ticks (s := low) b (show u.cfg.cntW ≤ 32 from hucfg ▸ hw)
      (show u.cnt.toNat < 2 ^ u.cfg.cntW by rw [hucnt', hucfg]; exact Nat.mod_lt _ (by positivity))
  have hlow : low.cfg = s.cfg := hucfg
  have hlowcnt : low.cnt.toNat = a % 2 ^ s.cfg.cntW := hucnt'
  rw [hlow, hlowcnt] at htcnt htwrap
  have ht : t.ccrPulse = u.cnt ∧ t.lvl = .low ∧ t.armed = true ∧ t.cfg = s.cfg := by
    rw [htframe]
    exact ⟨rfl, rfl, hua, hucfg⟩
  obtain ⟨htpulse, htl, hta, htcfg⟩ := ht
  refine ⟨t, ?_, ?_, ?_, htl, hta, htcfg, fun hsum => ?_⟩
  · rw [List.append_assoc, List.append_assoc, List.singleton_append, runOps_cons (exec_rise_accepted hl),
      runOps_append hup, List.singleton_append, runOps_cons (exec_fall_accepted (by rw [hul]; nofun))]
    exact hdown
  · rw [htcnt, Nat.mod_add_mod]
  · rw [htpulse, hucnt']
  · have ha : a % 2 ^ s.cfg.cntW = a := Nat.mod_eq_of_lt (by omega)
    exact htwrap (huwrap rfl (by simpa [start] using (by omega : a < 2 ^ s.cfg.cntW))) (by omega)

/-- Settles O16: the counter and the latch hold residues, and the last `RISE` hands both over. -/
theorem longPeriodIsCapturedAsResidues : Obligations.LongPeriodIsCapturedAsResidues := by
  intro s a b hw hl hres
  obtain ⟨u, hrun, hcnt, hpulse, hul, hua, hucfg, -⟩ := runOps_period a b hw hl
  have hrise := exec_rise_captures (s := u) (by rw [hul]; nofun) hua (.inr (by rw [hucfg, hres]))
  exact ⟨_, (runOps_append hrun).trans ((runOps_cons hrise).trans rfl), hcnt, hpulse, rfl⟩

/-- Settles O15: below `2^CNT_W` nothing wraps and the residues are the counts. -/
theorem onePeriodIsCapturedExactly : Obligations.OnePeriodIsCapturedExactly := by
  intro s a b hw hl hsum
  obtain ⟨u, hrun, hcnt, hpulse, hul, hua, -, hwrap⟩ := runOps_period a b hw hl
  rw [Nat.mod_eq_of_lt (by omega)] at hcnt hpulse
  have hrise := exec_rise_captures (s := u) (by rw [hul]; nofun) hua (.inl (hwrap hsum))
  exact ⟨_, (runOps_append hrun).trans ((runOps_cons hrise).trans rfl), hcnt, hpulse, rfl, rfl, rfl, hua⟩

/-- Settles O17: the invariant keeps the latched pulse at or below the counter while nothing wraps. -/
theorem capturedPulseIsNotAboveThePeriod : Obligations.CapturedPulseIsNotAboveThePeriod := by
  intro s t hinv ha hw h
  have hl : s.lvl ≠ .high := fun hh => by cases (exec_rise_refused hh).symm.trans h
  have hlow : s.lvl = .low := by
    cases hs : s.lvl with
    | low => rfl
    | high => exact absurd hs hl
    | unknown => exact absurd hs (hinv.timer.armed ha)
  cases (exec_rise_captures hl ha (.inl hw)).symm.trans h
  exact ⟨hinv.timer.pulse ha hlow hw, rfl⟩

/-! Waits -/

theorem exec_recvBlk_empty {s : State} {finite : Bool} (h : s.mbFull = false) :
    exec (.recvBlk finite) s = waitOrExpire s finite (.frame none) := by
  simp [exec, execRecvBlk, h]

theorem exec_mdFetch_empty {s : State} {finite : Bool} (h : s.mbFull = false) :
    exec (.mdFetch finite) s = waitOrExpire s finite (.frame none) := by
  simp [exec, execMdFetch, h]

theorem anyFlagUp_iff {s : State} {mask : Byte} : anyFlagUp s mask = true ↔ readEv s &&& mask &&& 0x7F ≠ 0 :=
  decide_eq_true_iff

theorem exec_evWait_down {s : State} {mask : Byte} {clearOnExit finite : Bool} (h : readEv s &&& mask &&& 0x7F = 0) :
    exec (.evWait mask clearOnExit finite) s = waitOrExpire s finite (.flags (readEv s) true) := by
  simp only [exec, execEvWait, if_neg (anyFlagUp_iff.not.mpr (not_not.mpr h))]

/-- Settles O10: the three operations wait in one way. -/
theorem waitsEitherExpireOrWait : Obligations.WaitsEitherExpireOrWait := by
  intro s finite clearOnExit mask
  have hwaits (h : finite = false ∨ s.expire = false) : (finite && s.expire) = false := by
    rcases h with h | h <;> simp [h]
  refine ⟨?_, fun hm h => ?_, ?_, fun hm h => ?_⟩
  · rintro hm rfl he
    exact ⟨(exec_recvBlk_empty hm).trans (waitOrExpire_expired he),
      (exec_mdFetch_empty hm).trans (waitOrExpire_expired he)⟩
  · exact ⟨(exec_recvBlk_empty hm).trans (waitOrExpire_waits (hwaits h)),
      (exec_mdFetch_empty hm).trans (waitOrExpire_waits (hwaits h))⟩
  · rintro hm rfl he
    exact (exec_evWait_down hm).trans (waitOrExpire_expired he)
  · exact (exec_evWait_down hm).trans (waitOrExpire_waits (hwaits h))

end Sys2Proof.Machine

/-! PROOFS. What the readers of the mailbox, the mode decoder and the flag operations answer, and the statements O36
to O39 and O42 to O46 of 43_can_receive.md, 44_can_mode_decode.md and 45_event_flags.md. -/

namespace Sys2Proof.Machine

open Sys2Proof

/-! Readers of a full mailbox -/

theorem exec_recvBlk_full {s : State} {finite : Bool} (h : s.mbFull = true) :
    exec (.recvBlk finite) s = .next { drainMailbox s with resp := .frame (some s.mb) } := by
  simp [exec, execRecvBlk, h, respond]

/-- Settles O36: both drain as `RECV_NB` does. -/
theorem blockingReadsDrainAFullMailbox : Obligations.BlockingReadsDrainAFullMailbox := by
  intro s finite h
  refine ⟨⟨_, exec_recvBlk_full h, readEv_drainMailbox s, ?_⟩, ⟨_, exec_mdFetch_full h, readEv_drainMailbox s, ?_⟩⟩
  all_goals rw [drainMailbox_frame]

/-- Settles O37: the second frame overwrites the first, and the read leaves the mailbox empty. -/
theorem latestFrameWins : Obligations.LatestFrameWins := by
  intro s f g hf hg
  obtain ⟨t, ht, hmb, hfull⟩ : ∃ t, runOps [.rxFrame f, .rxFrame g] s = .next t ∧ t.mb = g ∧ t.mbFull = true :=
    ⟨_, (runOps_cons (exec_rxFrame_accepted hf)).trans ((runOps_cons (exec_rxFrame_accepted hg)).trans rfl),
      notifyFrame_mb _, notifyFrame_mbFull _⟩
  refine ⟨_, _, (runOps_append ht).trans ((runOps_cons (exec_recvNb_full hfull)).trans rfl),
    congrArg (fun h => Response.frame (some h)) hmb, exec_recvNb_empty (drainMailbox_mbFull t), rfl, ?_⟩
  intro group
  cases group <;> simp [sameGroup, readEv]

/-! The mode decoder -/

/-- An answer of the mode decoder reaches no element but `ev`. -/
theorem maintainMode_frame (s : State) (d : Byte) : maintainMode s d = { s with ev := (maintainMode s d).ev } := by
  unfold maintainMode
  split <;> rfl

/-- The flags as they read after a frame has been applied: kept by a dropped frame, else with the mode's own flag in
the mode field (44_can_mode_decode.md R237, R238). -/
def modeEffect (outcome : Except ModeDrop CanMode) (ev : Byte) : Byte :=
  match outcome with
  | .error _ => ev
  | .ok m => (ev &&& ~~~modeMask) ||| desiredFlags m

theorem exec_mdApply_empty {s : State} (h : s.mdHave = false) : exec .mdApply s = .next { s with resp := .empty } := by
  simp [exec, execMdApply, h, respond]

theorem maintainMode_ev (s : State) (d : Byte) : (maintainMode s d).ev
    = if readEv s &&& modeMask = d then s.ev else ((readEv s &&& ~~~modeMask) ||| d) &&& evValid := by
  unfold maintainMode
  split <;> rfl

theorem maintainMode_ev_congr {s u : State} (h : u.ev = s.ev) (d : Byte) :
    (maintainMode u d).ev = (maintainMode s d).ev := by
  rw [maintainMode_ev, maintainMode_ev, readEv_congr h, h]

theorem exec_mdApply_known {s : State} {m : CanMode} (h : s.mdHave = true) (hd : decodeMode s.cfg s.md = .ok m) :
    exec .mdApply s
      = .next { s with mdHave := false, ev := (maintainMode s (desiredFlags m)).ev, resp := .empty } := by
  have hev : (maintainMode { s with mdHave := false } (desiredFlags m)).ev = (maintainMode s (desiredFlags m)).ev :=
    maintainMode_ev_congr (by rfl) _
  have hframe : maintainMode { s with mdHave := false } (desiredFlags m)
      = { s with mdHave := false, ev := (maintainMode s (desiredFlags m)).ev } := by
    rw [← hev]
    exact maintainMode_frame _ _
  simp only [exec, execMdApply, h, if_true, hd, respond, hframe]

/-- `MD_APPLY` on a latched frame, whatever becomes of it (R232). -/
theorem exec_mdApply_latched {s : State} (h : s.mdHave = true) :
    ∃ t, exec .mdApply s = .next t ∧ readEv t = modeEffect (decodeMode s.cfg s.md) (readEv s)
      ∧ t = { s with mdHave := false, ev := t.ev, resp := .empty } := by
  cases hd : decodeMode s.cfg s.md with
  | error r => exact ⟨_, exec_mdApply_dropped h hd, rfl, rfl⟩
  | ok m => exact ⟨_, exec_mdApply_known h hd, readEv_maintainMode s _ (desiredFlags_mode m), rfl⟩

/-- A byte of the payload at an address in range (10_state.md R39). -/
theorem memRead_of_getElem? {p : Payload} {k : Nat} {b : Byte} (h : p[k]? = some b) :
    memRead p (Fin.ofNat 8 k) = b := by
  obtain ⟨hk, hb⟩ := Vector.getElem?_eq_some_iff.mp h
  simpa [memRead, Nat.mod_eq_of_lt hk] using hb

theorem modeOfByte_unknown {m : Byte} (h : 3 < m.toNat) : modeOfByte m = none := by
  unfold modeOfByte
  split
  case h_5 => rfl
  all_goals omega

/-- The mode of a known byte, and its flag (30_encoding.md R101). -/
theorem modeOfByte_known {m : Byte} (h : m.toNat ≤ 3) : ∃ mode, modeOfByte m = some mode
    ∧ desiredFlags mode = if m = 0x00 then 0x08 else if m = 0x01 then 0x10 else if m = 0x02 then 0x20 else 0x00 := by
  obtain rfl | rfl | rfl | rfl : m = 0 ∨ m = 1 ∨ m = 2 ∨ m = 3 := by bv_omega
  · exact ⟨.up, rfl, rfl⟩
  · exact ⟨.down, rfl, rfl⟩
  · exact ⟨.stop, rfl, rfl⟩
  · exact ⟨.normal, rfl, rfl⟩

/-- The path of a data frame longer than `MODE_OFFSET` (R234). -/
theorem decodeMode_primary {cfg : Config} {f : Frame} (hr : f.rtr = false) (hlen : cfg.modeOffset < f.len.toNat) :
    decodeMode cfg f = primaryMode cfg f := by
  simp [decodeMode, hr, hlen]

/-- The path of a short data frame where the fallback reads its last byte (R235). -/
theorem decodeMode_fallback {cfg : Config} {f : Frame} (hr : f.rtr = false) (hlen : f.len.toNat ≤ cfg.modeOffset)
    (hc : cfg.shortFrameCompat = true) (hpos : 1 ≤ f.len.toNat) : decodeMode cfg f = lastByteMode f := by
  simp [decodeMode, hr, hc, hpos, Nat.not_lt.mpr hlen]

/-- A short data frame the fallback does not read (R235, R241). -/
theorem decodeMode_short {cfg : Config} {f : Frame} (hr : f.rtr = false) (hlen : f.len.toNat ≤ cfg.modeOffset)
    (h : cfg.shortFrameCompat = false ∨ f.len.toNat = 0) : decodeMode cfg f = .error .shortFrame := by
  rcases h with h | h <;> simp [decodeMode, hr, h, Nat.not_lt.mpr hlen]

theorem primaryMode_known {cfg : Config} {f : Frame} {m : Byte} {mode : CanMode}
    (hb : f.data[cfg.modeOffset]? = some m) (hm : modeOfByte m = some mode) : primaryMode cfg f = .ok mode := by
  rw [primaryMode, memRead_of_getElem? hb, hm]

theorem primaryMode_unknown {cfg : Config} {f : Frame} {m : Byte} (hb : f.data[cfg.modeOffset]? = some m)
    (hm : modeOfByte m = none) : primaryMode cfg f = unknownByte cfg.unknownMode := by
  rw [primaryMode, memRead_of_getElem? hb, hm]

theorem lastByteMode_known {f : Frame} {m : Byte} {mode : CanMode} (hb : f.data[f.len.toNat - 1]? = some m)
    (hm : modeOfByte m = some mode) : lastByteMode f = .ok mode := by
  rw [lastByteMode, memRead_of_getElem? hb, hm]

theorem lastByteMode_unknown {f : Frame} {m : Byte} (hb : f.data[f.len.toNat - 1]? = some m)
    (hm : modeOfByte m = none) : lastByteMode f = .error .shortFrame := by
  rw [lastByteMode, memRead_of_getElem? hb, hm]

/-- Settles O38: either path finds the mode of the byte. -/
theorem mdApplySetsTheModeOfTheByte : Obligations.MdApplySetsTheModeOfTheByte := by
  intro s m hhave hr hm hbyte
  obtain ⟨mode, hmode, hflag⟩ := modeOfByte_known hm
  have hd : decodeMode s.cfg s.md = .ok mode := by
    rcases hbyte with ⟨hlen, hb⟩ | ⟨hc, hpos, hlen, hb⟩
    · exact (decodeMode_primary hr hlen).trans (primaryMode_known hb hmode)
    · exact (decodeMode_fallback hr hlen hc hpos).trans (lastByteMode_known hb hmode)
  obtain ⟨t, ht, hev, hframe⟩ := exec_mdApply_latched hhave
  rw [hd] at hev
  exact ⟨t, ht, by rw [hev, ← hflag]; rfl, hframe⟩

/-- Settles O39: the remaining ways through the decoder. -/
theorem mdApplyDropsEveryOtherFrame : Obligations.MdApplyDropsEveryOtherFrame := by
  intro s
  refine ⟨exec_mdApply_empty, fun hhave hr hlen h => ?_, fun m hhave hr hlen hb hm => ?_⟩
  · have hshort : decodeMode s.cfg s.md = .error .shortFrame := by
      by_cases hfall : s.cfg.shortFrameCompat = false ∨ s.md.len.toNat = 0
      · exact decodeMode_short hr hlen hfall
      · obtain ⟨hc, hpos⟩ := not_or.mp hfall
        obtain ⟨m, hb, hm⟩ := (h.resolve_left hc).resolve_left hpos
        exact (decodeMode_fallback hr hlen (by simpa using hc) (by omega)).trans
          (lastByteMode_unknown hb (modeOfByte_unknown hm))
    exact exec_mdApply_dropped hhave hshort
  · have hd : decodeMode s.cfg s.md = unknownByte s.cfg.unknownMode :=
      (decodeMode_primary hr hlen).trans (primaryMode_unknown hb (modeOfByte_unknown hm))
    refine ⟨fun hdrop => exec_mdApply_dropped hhave (hd.trans (by rw [hdrop]; rfl)), fun hnormal => ?_⟩
    have hd' : decodeMode s.cfg s.md = .ok .normal := hd.trans (by rw [hnormal]; rfl)
    obtain ⟨t, ht, hev, hframe⟩ := exec_mdApply_latched hhave
    rw [hd'] at hev
    exact ⟨t, ht, by rw [hev]; exact BitVec.or_zero, hframe⟩

/-- The primary path reads one byte: frames that agree there decode alike (R242). -/
theorem primaryMode_congr {cfg : Config} {f g : Frame} (ho : cfg.modeOffset ≤ 7)
    (h : g.data[cfg.modeOffset]? = f.data[cfg.modeOffset]?) : primaryMode cfg g = primaryMode cfg f := by
  obtain ⟨b, hb⟩ : ∃ b, f.data[cfg.modeOffset]? = some b := ⟨_, Vector.getElem?_eq_getElem (by omega)⟩
  rw [primaryMode, primaryMode, memRead_of_getElem? hb, memRead_of_getElem? (h.trans hb)]

/-- Settles O42: both frames take the primary path, to the same mode. -/
theorem mdApplyReadsOnlyTheModeByte : Obligations.MdApplyReadsOnlyTheModeByte := by
  intro s id ext len data mb full ho hlen hlen' hdata
  have hmode : decodeMode s.cfg ⟨id, ext, s.md.rtr, len, data⟩ = decodeMode s.cfg s.md := by
    cases hr : s.md.rtr with
    | true => rw [decodeMode_remote hr, decodeMode_remote rfl]
    | false =>
      rw [decodeMode_primary hr hlen, decodeMode_primary rfl hlen']
      exact primaryMode_congr ho hdata
  rcases Bool.eq_false_or_eq_true s.mdHave with hhave | hhave
  · cases hd : decodeMode s.cfg s.md with
    | error r =>
      exact ⟨_, _, exec_mdApply_dropped hhave hd, exec_mdApply_dropped hhave (hmode.trans hd), rfl, rfl⟩
    | ok m =>
      exact ⟨_, _, exec_mdApply_known hhave hd, exec_mdApply_known hhave (hmode.trans hd),
        maintainMode_ev_congr (by rfl) _, rfl⟩
  · exact ⟨_, _, exec_mdApply_empty hhave, exec_mdApply_empty hhave, rfl, rfl⟩

/-! A pass of the mode decoder with a reception between its halves -/

/-- The flags of a field after an effect on the mode field depend on the flags of that field before it. -/
theorem modeEffect_congr {outcome : Except ModeDrop CanMode} {e e' mask : Byte} (h : e &&& mask = e' &&& mask) :
    modeEffect outcome e &&& mask = modeEffect outcome e' &&& mask := by
  cases outcome with
  | error r => exact h
  | ok m =>
    have hmove (x : Byte) : (x &&& ~~~modeMask ||| desiredFlags m) &&& mask
        = (x &&& mask &&& ~~~modeMask) ||| (desiredFlags m &&& mask) := by
      rw [BitVec.and_comm, BitVec.and_or_distrib_left, BitVec.and_comm mask, BitVec.and_comm mask,
        BitVec.and_assoc, BitVec.and_assoc, BitVec.and_comm mask]
    simp only [modeEffect, hmove, h]

/-- The notification is above the mode and turn flags (10_state.md R35). -/
theorem readEv_notifyFrame_low (s : State) : readEv (notifyFrame s) &&& 0x3F = readEv s &&& 0x3F := by
  have hmask : (0x3F : Byte) &&& frameReceived = 0#8 := by decide
  rw [readEv_notifyFrame]
  split_ifs
  · rw [BitVec.and_comm, BitVec.and_or_distrib_left, hmask, BitVec.or_zero, BitVec.and_comm]
  · rfl

/-- Settles O43: the received frame reaches neither the latch nor the mode flags. -/
theorem receptionDoesNotDisturbAPass : Obligations.ReceptionDoesNotDisturbAPass := by
  intro s f finite hfull hlen
  obtain ⟨u, hu, humd, huhave⟩ : ∃ u, exec (.mdFetch finite) s = .next u ∧ u.md = s.mb ∧ u.mdHave = true :=
    ⟨_, exec_mdFetch_full hfull, rfl, rfl⟩
  obtain ⟨v, hv, hvev, hvcfg, hvmd, hvhave, hvmb, hvfull⟩ : ∃ v, exec (.rxFrame f) u = .next v
      ∧ readEv v &&& 0x3F = readEv u &&& 0x3F ∧ v.cfg = u.cfg ∧ v.md = u.md ∧ v.mdHave = true ∧ v.mb = f
      ∧ v.mbFull = true :=
    ⟨_, exec_rxFrame_accepted hlen, readEv_notifyFrame_low _, notifyFrame_cfg _, notifyFrame_md _,
      (notifyFrame_mdHave _).trans huhave, notifyFrame_mb _, notifyFrame_mbFull _⟩
  obtain ⟨t, ht, htev, htframe⟩ := exec_mdApply_latched hvhave
  obtain ⟨t', ht', htev', -⟩ := exec_mdApply_latched huhave
  refine ⟨t, t', ?_, ?_, ?_, ?_⟩
  · rw [runOps_cons hu, runOps_cons hv, runOps_cons ht, runOps]
  · rw [runOps_cons hu, runOps_cons ht', runOps]
  · rw [htev, htev', hvcfg, hvmd]
    exact modeEffect_congr hvev
  · rw [htframe]
    exact ⟨hvmb, hvfull, hvmd.trans humd, rfl⟩

/-! The flag operations -/

/-- What a flag operation leaves: another value of `ev`, and an empty response. -/
def flagged (s : State) (v : Byte) : State := { s with ev := v, resp := .empty }

theorem readEv_flagged (s : State) (v : Byte) : readEv (flagged s v) = v &&& evValid := rfl

theorem flagged_flagged (s : State) (v w : Byte) : flagged (flagged s v) w = flagged s w := rfl

/-- The named flags stay within `EV_VALID` when any of them fall. -/
theorem readEv_and_valid (s : State) (m : Byte) : (readEv s &&& m) &&& evValid = readEv s &&& m := by
  rw [BitVec.and_assoc, BitVec.and_comm m, ← BitVec.and_assoc, readEv_valid]

theorem exec_evSet (s : State) (mask : Byte) :
    exec (.evSet mask) s = .next (flagged s ((readEv s ||| mask) &&& evValid)) := by
  have hev : (readEv s ||| (mask &&& evValid)) &&& evValid = (readEv s ||| mask) &&& evValid := by
    ext j hj
    simp only [BitVec.getElem_and, BitVec.getElem_or]
    cases evValid[j] <;> simp
  simp only [exec, execEvSet, respond, setFlags, writeEv, hev, flagged]

theorem exec_evClear (s : State) (mask : Byte) :
    exec (.evClear mask) s = .next (flagged s (readEv s &&& ~~~mask)) := by
  simp only [exec, execEvClear, respond, clearFlags, writeEv, readEv_and_valid, flagged]

theorem exec_evWait_up {s : State} {mask : Byte} {clearOnExit finite : Bool}
    (h : readEv s &&& mask &&& 0x7F ≠ 0) :
    exec (.evWait mask clearOnExit finite) s
      = .next { (if clearOnExit then clearFlags s mask else s) with resp := .flags (readEv s) false } := by
  simp only [exec, execEvWait, if_pos (anyFlagUp_iff.mpr h), respond]

/-- Settles O44: the words, the table of contexts, and the two equations above. -/
theorem evSetAndEvClearWriteTheirMask : Obligations.EvSetAndEvClearWriteTheirMask := by
  refine ⟨fun _ _ _ => ⟨decode_evSet, decode_evClear⟩, fun _ => ⟨rfl, rfl⟩, fun s mask => ⟨?_, ?_⟩⟩
  · exact ⟨_, rfl, readEv_setFlags s mask, rfl⟩
  · exact ⟨_, rfl, readEv_clearFlags s mask, rfl⟩

/-- Settles O45. -/
theorem evWaitReturnsTheWordAndClearsTheMask : Obligations.EvWaitReturnsTheWordAndClearsTheMask := by
  intro s mask clearOnExit finite h
  refine ⟨_, exec_evWait_up h, ?_, ?_⟩
  · cases clearOnExit
    · rfl
    · exact readEv_clearFlags s mask
  · cases clearOnExit <;> rfl

/-! The algebra of the flag operations -/

section Algebra
variable (s : State) (a b : Byte)

theorem runOps_evSet_evSet : runOps [.evSet a, .evSet b] s = exec (.evSet (a ||| b)) s := by
  have hev : (((readEv s ||| a) &&& evValid) &&& evValid ||| b) &&& evValid
      = (readEv s ||| (a ||| b)) &&& evValid := by
    ext j hj
    simp only [BitVec.getElem_and, BitVec.getElem_or]
    cases evValid[j] <;> simp [Bool.or_assoc]
  rw [runOps_cons (exec_evSet s a), runOps_cons (exec_evSet _ b), runOps, exec_evSet, readEv_flagged,
    flagged_flagged, hev]

theorem runOps_evClear_evClear : runOps [.evClear a, .evClear b] s = exec (.evClear (a ||| b)) s := by
  have hev : (readEv s &&& ~~~a) &&& evValid &&& ~~~b = readEv s &&& ~~~(a ||| b) := by
    rw [readEv_and_valid, BitVec.and_assoc, BitVec.not_or]
  rw [runOps_cons (exec_evClear s a), runOps_cons (exec_evClear _ b), runOps, exec_evClear, readEv_flagged,
    flagged_flagged, hev]

theorem runOps_evSet_evClear : runOps [.evSet a, .evClear b] s
    = .next (flagged s (((readEv s ||| a) &&& evValid) &&& ~~~b)) := by
  rw [runOps_cons (exec_evSet s a), runOps_cons (exec_evClear _ b), runOps, readEv_flagged, flagged_flagged,
    BitVec.and_assoc _ evValid evValid, BitVec.and_self]

theorem runOps_evClear_evSet : runOps [.evClear b, .evSet a] s
    = .next (flagged s (((readEv s &&& ~~~b) ||| a) &&& evValid)) := by
  rw [runOps_cons (exec_evClear s b), runOps_cons (exec_evSet _ a), runOps, readEv_flagged, flagged_flagged,
    readEv_and_valid]

end Algebra

/-- A set and a clear of disjoint masks commute: no flag is in both. -/
theorem runOps_evSet_evClear_comm {s : State} {a b : Byte} (h : a &&& b = 0) :
    runOps [.evSet a, .evClear b] s = runOps [.evClear b, .evSet a] s := by
  have hev : ((readEv s ||| a) &&& evValid) &&& ~~~b = ((readEv s &&& ~~~b) ||| a) &&& evValid := by
    ext j hj
    have hdisjoint : (a[j] && b[j]) = false := by rw [← BitVec.getElem_and, h]; simp
    simp only [BitVec.getElem_and, BitVec.getElem_or, BitVec.getElem_not]
    revert hdisjoint
    cases a[j] <;> cases b[j] <;> simp
  rw [runOps_evSet_evClear, runOps_evClear_evSet, hev]

theorem runOps_evSet_evClear_same (s : State) (a : Byte) :
    runOps [.evSet a, .evClear a] s = exec (.evClear a) s := by
  have hev : ((readEv s ||| a) &&& evValid) &&& ~~~a = readEv s &&& ~~~a := by
    rw [← readEv_and_valid s (~~~a)]
    ext j hj
    simp only [BitVec.getElem_and, BitVec.getElem_or, BitVec.getElem_not]
    cases a[j] <;> simp
  rw [runOps_evSet_evClear, exec_evClear, hev]

/-- Settles O46: the laws above; sets commute because their masks do. -/
theorem flagOperationsCombine : Obligations.FlagOperationsCombine := by
  intro s a b
  refine ⟨runOps_evSet_evSet s a b, ?_, runOps_evClear_evClear s a b, runOps_evSet_evClear_comm,
    runOps_evSet_evClear_same s a⟩
  rw [runOps_evSet_evSet, runOps_evSet_evSet, BitVec.or_comm]

end Sys2Proof.Machine

/-! PROOFS. The access table of 10_state.md R37: which elements an operation writes, said once for every operation,
on which elements its answer depends, and the statement O58. -/

namespace Sys2Proof.Machine

open Sys2Proof

/-! What an operation writes -/

/-- `s` with the elements an operation may write, and the response, as `t` has them (10_state.md R37). -/
def rowUpdate (i : Instr) (s t : State) : State :=
  match i with
  | .idle | .canSend _ _ => { s with resp := t.resp }
  | .reset => { t with cfg := s.cfg, agents := s.agents, sched := s.sched, expire := s.expire }
  | .tick => { s with cnt := t.cnt, wrapped := t.wrapped, resp := t.resp }
  | .rise => { s with
      cnt := t.cnt, ccrPeriod := t.ccrPeriod, lvl := t.lvl, armed := t.armed, wrapped := t.wrapped,
      periodTicks := t.periodTicks, pulseTicks := t.pulseTicks, hasNew := t.hasNew, draws := t.draws,
      resp := t.resp }
  | .fall => { s with ccrPulse := t.ccrPulse, lvl := t.lvl, resp := t.resp }
  | .capture _ _ => { s with
      periodTicks := t.periodTicks, pulseTicks := t.pulseTicks, hasNew := t.hasNew, resp := t.resp }
  | .getAngle => { s with
      hasNew := t.hasNew, zeroInit := t.zeroInit, zeroDegrees := t.zeroDegrees, resp := t.resp }
  | .btSynth _ _ => { s with
      btFound := t.btFound, btPrescaler := t.btPrescaler, btSeg1 := t.btSeg1, btSeg2 := t.btSeg2, resp := t.resp }
  | .rxFrame _ => { s with mb := t.mb, mbFull := t.mbFull, ev := t.ev, resp := t.resp }
  | .recvNb | .recvBlk _ => { s with mbFull := t.mbFull, ev := t.ev, resp := t.resp }
  | .mdFetch _ => { s with mbFull := t.mbFull, md := t.md, mdHave := t.mdHave, ev := t.ev, resp := t.resp }
  | .mdApply => { s with mdHave := t.mdHave, ev := t.ev, resp := t.resp }
  | .evSet _ | .evClear _ | .evWait _ _ _ => { s with ev := t.ev, resp := t.resp }
  | .fsmSample _ _ => { s with
      steer := t.steer, cntLeft := t.cntLeft, cntRight := t.cntRight, cntCenter := t.cntCenter, ev := t.ev,
      resp := t.resp }

theorem rowUpdate_self (i : Instr) (s : State) : rowUpdate i s s = s := by cases i <;> rfl

theorem rowUpdate_respond (i : Instr) (s u : State) (r : Response) :
    rowUpdate i s { u with resp := r } = { rowUpdate i s u with resp := r } := by cases i <;> rfl

theorem frame_respond {i : Instr} {s u t : State} {r : Response} (h : respond u r = .next t)
    (hu : u = rowUpdate i s u) : t = rowUpdate i s t := by
  rw [respond_eq_next.mp h, rowUpdate_respond, ← hu]

theorem frame_waitOrExpire {i : Instr} {s t : State} {finite : Bool} {r : Response}
    (h : waitOrExpire s finite r = .next t) : t = rowUpdate i s t := by
  rw [(waitOrExpire_next h).1, rowUpdate_respond, rowUpdate_self]

theorem frame_captureAtRise (s : State) : latchRise (captureAtRise s) = rowUpdate .rise s (latchRise (captureAtRise s)) := by
  unfold captureAtRise storeWrappedCapture
  split_ifs
  · split <;> rfl
  all_goals rfl

theorem frame_execGetAngle {s t : State} (h : execGetAngle s = .next t) : t = rowUpdate .getAngle s t := by
  unfold execGetAngle takeZero takeRelative at h
  split at h
  case h_5 =>
    split at h
    · cases h
    · exact frame_respond h rfl
  case h_6 =>
    split at h
    · cases h
    · split at h
      · cases h
      · exact frame_respond h rfl
  all_goals exact frame_respond h rfl

theorem frame_sampleCenter (s : State) (valid : Bool) (a : AnglePort) :
    sampleCenter s a = rowUpdate (.fsmSample valid a) s (sampleCenter s a) := by
  simp only [sampleCenter]
  split_ifs <;> rfl

theorem frame_sampleTurned (s : State) (valid : Bool) (a : AnglePort) :
    sampleTurned s a = rowUpdate (.fsmSample valid a) s (sampleTurned s a) := by
  simp only [sampleTurned]
  split_ifs <;> rfl

/-- An operation that answers has changed the elements of its row only. -/
theorem exec_frame {i : Instr} {s t : State} (h : exec i s = .next t) : t = rowUpdate i s t := by
  cases i with
  | idle | reset | tick | capture | evSet | evClear => exact frame_respond h rfl
  | rise =>
    simp only [exec, execRise] at h
    split at h
    · cases h
    all_goals exact frame_respond h (frame_captureAtRise s)
  | fall =>
    simp only [exec, execFall] at h
    split at h
    · cases h
    all_goals exact frame_respond h rfl
  | getAngle => exact frame_execGetAngle h
  | btSynth clockHz bitrateBps =>
    simp only [exec, execBtSynth] at h
    split at h <;> exact frame_respond h rfl
  | rxFrame frame =>
    simp only [exec, execRxFrame] at h
    split at h
    · exact frame_respond h (by rw [notifyFrame_frame]; rfl)
    · cases h
  | recvNb =>
    simp only [exec, execRecvNb] at h
    split at h
    · exact frame_respond h (by rw [drainMailbox_frame]; rfl)
    · exact frame_respond h rfl
  | recvBlk finite =>
    simp only [exec, execRecvBlk] at h
    split at h
    · exact frame_respond h (by rw [drainMailbox_frame]; rfl)
    · exact frame_waitOrExpire h
  | mdFetch finite =>
    simp only [exec, execMdFetch] at h
    split at h
    · exact frame_respond h (by rw [drainMailbox_frame]; rfl)
    · exact frame_waitOrExpire h
  | mdApply =>
    simp only [exec, execMdApply] at h
    split at h
    · split at h
      · exact frame_respond h rfl
      · exact frame_respond h (by rw [maintainMode_frame]; rfl)
    · exact frame_respond h rfl
  | evWait mask clearOnExit finite =>
    simp only [exec, execEvWait] at h
    split at h
    · exact frame_respond h (by cases clearOnExit <;> rfl)
    · exact frame_waitOrExpire h
  | fsmSample valid angle =>
    simp only [exec, execFsmSample] at h
    split at h
    · split at h
      · exact frame_respond h (frame_sampleCenter s _ angle)
      all_goals exact frame_respond h (frame_sampleTurned s _ angle)
    · exact frame_respond h rfl
  | canSend frame txFree =>
    simp only [exec, execCanSend] at h
    split_ifs at h <;> exact frame_respond h rfl

/-! The groups outside the row -/

theorem rowUpdate_keeps_group (i : Instr) (s t : State) {g : Group} (hg : mayWrite i g = false) :
    sameGroup g s (rowUpdate i s t) := by
  cases i <;> cases g <;> simp_all [sameGroup, mayWrite, rowUpdate, readEv]

theorem exec_keeps_group {i : Instr} {s t : State} (h : exec i s = .next t) {g : Group}
    (hg : mayWrite i g = false) : sameGroup g s t := by
  rw [exec_frame h]
  exact rowUpdate_keeps_group i s t hg

theorem exec_keeps_environment {i : Instr} {s t : State} (h : exec i s = .next t) :
    t.cfg = s.cfg ∧ t.agents = s.agents ∧ t.sched = s.sched ∧ t.expire = s.expire := by
  rw [exec_frame h]
  cases i <;> exact ⟨rfl, rfl, rfl, rfl⟩

theorem exec_keeps_started {i : Instr} {s t : State} (h : exec i s = .next t) (hi : i ≠ .reset) :
    t.started = s.started := by
  rw [exec_frame h]
  cases i with
  | reset => exact absurd rfl hi
  | _ => rfl

/-! What an operation reads -/

/-- Two answers of one operation that nobody who sees only its row can tell apart. -/
def SameAnswer (i : Instr) (a b : Answer) : Prop :=
  match a, b with
  | .next t, .next u => u.resp = t.resp ∧ ∀ g, mayWrite i g = true → sameGroup g t u
  | .fault e, .fault e' => e' = e
  | .refused e, .refused e' => e' = e
  | _, _ => False

theorem sameAnswer_respond {i : Instr} {t u : State} {r : Response}
    (h : ∀ g, mayWrite i g = true → sameGroup g t u) : SameAnswer i (respond t r) (respond u r) := by
  refine ⟨rfl, fun g hg => ?_⟩
  have hgroup := h g hg
  cases g <;> exact hgroup

/-- `u` agrees with `s` on the row of an operation and on its inputs beside the row. -/
structure Agree (i : Instr) (s u : State) : Prop where
  row : ∀ g, mayWrite i g = true → sameGroup g s u
  cfg : u.cfg = s.cfg
  expire : u.expire = s.expire
  wrapped : u.wrapped = s.wrapped
  draws : u.draws = s.draws

section Reads
variable {s u : State}

theorem sameAnswer_waitOrExpire {i : Instr} {finite : Bool} {r : Response} (h : Agree i s u) :
    SameAnswer i (waitOrExpire s finite r) (waitOrExpire u finite r) := by
  unfold waitOrExpire
  rw [h.expire]
  split <;> exact sameAnswer_respond h.row

theorem reads_rise (h : Agree .rise s u) : SameAnswer .rise (execRise s) (execRise u) := by
  obtain ⟨hcnt, hperiod, hpulse, hlvl, harmed⟩ := h.row .timer rfl
  obtain ⟨hp, hw, hn⟩ := h.row .captureCell rfl
  have hgroups : ∀ g, mayWrite .rise g = true →
      sameGroup g (latchRise (captureAtRise s)) (latchRise (captureAtRise u)) := by
    simp only [captureAtRise, storeWrappedCapture, harmed, h.wrapped, h.cfg, h.draws, hcnt, hpulse]
    split_ifs
    · split <;> intro g hg <;> cases g <;> simp_all [sameGroup, mayWrite, latchRise, storeCapture]
    all_goals intro g hg; cases g <;> simp_all [sameGroup, mayWrite, latchRise, storeCapture]
  unfold execRise
  rw [hlvl]
  split
  · rfl
  all_goals exact sameAnswer_respond hgroups

theorem reads_getAngle (h : Agree .getAngle s u) : SameAnswer .getAngle (execGetAngle s) (execGetAngle u) := by
  obtain ⟨hp, hw, hn⟩ := h.row .captureCell rfl
  obtain ⟨hz, hd⟩ := h.row .zeroReference rfl
  have hfail : angleFailure u = angleFailure s := by simp only [angleFailure, hp, hw, hn, hz]
  unfold execGetAngle takeZero takeRelative
  rw [hfail, h.cfg, hp, hw, hd]
  split
  case h_5 =>
    split
    · rfl
    · exact sameAnswer_respond fun g hg => by cases g <;> simp_all [sameGroup, mayWrite]
  case h_6 =>
    split
    · rfl
    · split
      · rfl
      · exact sameAnswer_respond fun g hg => by cases g <;> simp_all [sameGroup, mayWrite]
  all_goals exact sameAnswer_respond fun g hg => by cases g <;> simp_all [sameGroup, mayWrite]

/-! An operation on the flags depends on what `ev` reads as, bit 7 aside (R34). -/

theorem readEv_setFlags_congr (hev : readEv u = readEv s) (m : Byte) :
    readEv (setFlags u m) = readEv (setFlags s m) := by
  rw [readEv_setFlags, readEv_setFlags, hev]

theorem readEv_clearFlags_congr (hev : readEv u = readEv s) (m : Byte) :
    readEv (clearFlags u m) = readEv (clearFlags s m) := by
  rw [readEv_clearFlags, readEv_clearFlags, hev]

theorem readEv_notifyFrame_congr (hc : u.cfg = s.cfg) (hev : readEv u = readEv s) :
    readEv (notifyFrame u) = readEv (notifyFrame s) := by
  rw [readEv_notifyFrame, readEv_notifyFrame, hc, hev]

theorem readEv_drainMailbox_congr (hc : u.cfg = s.cfg) (hev : readEv u = readEv s) :
    readEv (drainMailbox u) = readEv (drainMailbox s) := by
  rw [readEv_drainMailbox, readEv_drainMailbox, hc, hev]

/-- Two transitions to one state are the same in what they write. -/
theorem sameGroup_enterSteer {valid : Bool} {a : AnglePort} (hev : readEv u = readEv s) (target : Steer) (m : Byte)
    (g : Group) (hg : mayWrite (.fsmSample valid a) g = true) :
    sameGroup g (enterSteer s target m) (enterSteer u target m) := by
  cases g <;> simp [mayWrite] at hg
  case ev => exact readEv_setFlags_congr (s := { s with steer := target }) (u := { u with steer := target }) hev m
  case steering => exact ⟨rfl, rfl, rfl, rfl⟩

theorem reads_fsmSample {valid : Bool} {a : AnglePort} (h : Agree (.fsmSample valid a) s u) :
    SameAnswer (.fsmSample valid a) (execFsmSample valid a s) (execFsmSample valid a u) := by
  obtain ⟨hsteer, hl, hr, hc⟩ := h.row .steering rfl
  have hev : readEv u = readEv s := h.row .ev rfl
  have hcenter : ∀ g, mayWrite (.fsmSample valid a) g = true →
      sameGroup g (sampleCenter s a) (sampleCenter u a) := by
    simp only [sampleCenter, h.cfg, hl, hr]
    split_ifs
    · exact sameGroup_enterSteer (by exact hev) _ _
    · exact sameGroup_enterSteer (by exact hev) _ _
    · intro g hg
      cases g <;> simp [mayWrite] at hg
      case ev => exact hev
      case steering => exact ⟨hsteer, rfl, rfl, hc⟩
  have hturned : ∀ g, mayWrite (.fsmSample valid a) g = true →
      sameGroup g (sampleTurned s a) (sampleTurned u a) := by
    simp only [sampleTurned, h.cfg, hc]
    split_ifs
    · exact sameGroup_enterSteer (by exact hev) _ _
    · intro g hg
      cases g <;> simp [mayWrite] at hg
      case ev => exact hev
      case steering => exact ⟨hsteer, hl, hr, rfl⟩
  unfold execFsmSample
  rw [hsteer]
  split
  · split
    · exact sameAnswer_respond hcenter
    all_goals exact sameAnswer_respond hturned
  · refine sameAnswer_respond fun g hg => ?_
    cases g <;> simp [mayWrite] at hg
    case ev => exact hev
    case steering => exact ⟨hsteer, rfl, rfl, rfl⟩

/-- The readers of the mailbox that answer with its frame write its flag and `ev`. -/
theorem sameGroup_drainMailbox (hmb : u.mb = s.mb) (hc : u.cfg = s.cfg) (hev : readEv u = readEv s) (g : Group)
    (hg : g = .mailbox ∨ g = .ev) : sameGroup g (drainMailbox s) (drainMailbox u) := by
  rcases hg with rfl | rfl
  · simp [sameGroup, hmb]
  · exact readEv_drainMailbox_congr hc hev

theorem reads_recvNb (h : Agree .recvNb s u) : SameAnswer .recvNb (execRecvNb s) (execRecvNb u) := by
  obtain ⟨hmb, hfull⟩ := h.row .mailbox rfl
  unfold execRecvNb
  rw [hfull, hmb]
  split
  · exact sameAnswer_respond fun g hg => sameGroup_drainMailbox hmb h.cfg (h.row .ev rfl) g (by simpa [mayWrite] using hg)
  · exact sameAnswer_respond h.row

theorem reads_recvBlk {finite : Bool} (h : Agree (.recvBlk finite) s u) :
    SameAnswer (.recvBlk finite) (execRecvBlk finite s) (execRecvBlk finite u) := by
  obtain ⟨hmb, hfull⟩ := h.row .mailbox rfl
  unfold execRecvBlk
  rw [hfull, hmb]
  split
  · exact sameAnswer_respond fun g hg => sameGroup_drainMailbox hmb h.cfg (h.row .ev rfl) g (by simpa [mayWrite] using hg)
  · exact sameAnswer_waitOrExpire h

theorem reads_mdFetch {finite : Bool} (h : Agree (.mdFetch finite) s u) :
    SameAnswer (.mdFetch finite) (execMdFetch finite s) (execMdFetch finite u) := by
  obtain ⟨hmb, hfull⟩ := h.row .mailbox rfl
  unfold execMdFetch
  rw [hfull, hmb]
  split
  · refine sameAnswer_respond fun g hg => ?_
    cases g <;> simp [mayWrite] at hg
    case mailbox => exact sameGroup_drainMailbox hmb h.cfg (h.row .ev rfl) .mailbox (.inl rfl)
    case ev => exact sameGroup_drainMailbox hmb h.cfg (h.row .ev rfl) .ev (.inr rfl)
    case latch => exact ⟨rfl, rfl⟩
  · exact sameAnswer_waitOrExpire h

theorem reads_mdApply (h : Agree .mdApply s u) : SameAnswer .mdApply (exec .mdApply s) (exec .mdApply u) := by
  obtain ⟨hmd, hhave⟩ := h.row .latch rfl
  rcases Bool.eq_false_or_eq_true s.mdHave with hs | hs
  · obtain ⟨t, ht, htev, htframe⟩ := exec_mdApply_latched hs
    obtain ⟨v, hv, hvev, hvframe⟩ := exec_mdApply_latched (hhave.trans hs)
    rw [ht, hv]
    have hresp : v.resp = t.resp := by rw [hvframe, htframe]
    refine ⟨hresp, fun g hg => ?_⟩
    cases g <;> simp [mayWrite] at hg
    case latch =>
      rw [hvframe, htframe]
      exact ⟨hmd, rfl⟩
    case ev =>
      change readEv v = readEv t
      rw [hvev, htev, h.cfg, hmd, show readEv u = readEv s from h.row .ev rfl]
  · rw [exec_mdApply_empty hs, exec_mdApply_empty (hhave.trans hs)]
    exact sameAnswer_respond h.row

theorem reads_evWait {mask : Byte} {clearOnExit finite : Bool} (h : Agree (.evWait mask clearOnExit finite) s u) :
    SameAnswer (.evWait mask clearOnExit finite) (execEvWait mask clearOnExit finite s)
      (execEvWait mask clearOnExit finite u) := by
  have hev : readEv u = readEv s := h.row .ev rfl
  unfold execEvWait anyFlagUp
  rw [hev]
  split
  · refine sameAnswer_respond fun g hg => ?_
    cases g <;> simp [mayWrite] at hg
    cases clearOnExit
    · exact hev
    · exact readEv_clearFlags_congr hev mask
  · exact sameAnswer_waitOrExpire h

/-- The second half of the access table: an operation's answer depends on its row alone (R37). -/
theorem exec_reads {i : Instr} (hi : i ≠ .reset) (h : Agree i s u) : SameAnswer i (exec i s) (exec i u) := by
  cases i with
  | reset => exact absurd rfl hi
  | idle => exact sameAnswer_respond h.row
  | capture period pulse =>
    refine sameAnswer_respond fun g hg => ?_
    cases g <;> simp [mayWrite] at hg
    exact ⟨rfl, rfl, rfl⟩
  | tick =>
    obtain ⟨hcnt, hperiod, hpulse, hlvl, harmed⟩ := h.row .timer rfl
    refine sameAnswer_respond fun g hg => ?_
    cases g <;> simp [mayWrite] at hg
    exact ⟨by simp only [h.cfg, hcnt], hperiod, hpulse, hlvl, harmed⟩
  | rise => exact reads_rise h
  | fall =>
    obtain ⟨hcnt, hperiod, hpulse, hlvl, harmed⟩ := h.row .timer rfl
    simp only [exec, execFall, hlvl]
    split
    · rfl
    all_goals
      refine sameAnswer_respond fun g hg => ?_
      cases g <;> simp [mayWrite] at hg
      exact ⟨hcnt, hperiod, hcnt, rfl, harmed⟩
  | getAngle => exact reads_getAngle h
  | btSynth clockHz bitrateBps =>
    obtain ⟨hf, hp, h1, h2⟩ := h.row .bitTiming rfl
    simp only [exec, execBtSynth, h.cfg]
    split
    all_goals
      refine sameAnswer_respond fun g hg => ?_
      cases g <;> simp [mayWrite] at hg
    · exact ⟨rfl, hp, h1, h2⟩
    · exact ⟨rfl, rfl, rfl, rfl⟩
  | rxFrame frame =>
    simp only [exec, execRxFrame, storeFrame_eq]
    split
    · refine sameAnswer_respond fun g hg => ?_
      cases g <;> simp [mayWrite] at hg
      case mailbox => simp [sameGroup]
      case ev =>
        exact readEv_notifyFrame_congr (s := { s with mb := frame, mbFull := true })
          (u := { u with mb := frame, mbFull := true }) h.cfg (h.row .ev rfl)
    · rfl
  | recvNb => exact reads_recvNb h
  | recvBlk finite => exact reads_recvBlk h
  | mdFetch finite => exact reads_mdFetch h
  | mdApply => exact reads_mdApply h
  | evSet mask =>
    refine sameAnswer_respond fun g hg => ?_
    cases g <;> simp [mayWrite] at hg
    exact readEv_setFlags_congr (h.row .ev rfl) mask
  | evClear mask =>
    refine sameAnswer_respond fun g hg => ?_
    cases g <;> simp [mayWrite] at hg
    exact readEv_clearFlags_congr (h.row .ev rfl) mask
  | evWait mask clearOnExit finite => exact reads_evWait h
  | fsmSample valid angle => exact reads_fsmSample h
  | canSend frame txFree =>
    simp only [exec, execCanSend]
    split_ifs <;> exact sameAnswer_respond h.row

/-- `RESET` reads nothing but the parameters and how many free values have been drawn (R350; 93 U2). -/
theorem reset_reads (hc : u.cfg = s.cfg) (hd : u.draws = s.draws) :
    SameAnswer .reset (exec .reset s) (exec .reset u) := by
  refine sameAnswer_respond fun g hg => ?_
  cases g <;> simp_all [mayWrite, sameGroup, resetBlock, readEv]

end Reads

/-- Settles O58: the writes by the frame of an operation, the reads by its row. -/
theorem operationsTouchOnlyTheirGroups : Obligations.OperationsTouchOnlyTheirGroups := by
  refine ⟨fun i s t h => ?_, fun i s u hrow hc he hw hd => ?_⟩
  · obtain ⟨-, hagents, hsched, hexpire⟩ := exec_keeps_environment h
    exact ⟨fun _ => exec_keeps_group h, hagents, hsched, hexpire, exec_keeps_started h⟩
  · have hsame : SameAnswer i (exec i s) (exec i u) := by
      by_cases hi : i = .reset
      · subst hi
        exact reset_reads hc hd
      · exact exec_reads hi ⟨hrow.resolve_left hi, hc, he, hw, hd⟩
    refine ⟨fun t ht => ?_, fun e ht => ?_, fun e ht => ?_⟩ <;> rw [ht] at hsame
    · cases hu : exec i u with
      | next v => exact ⟨v, rfl, by rwa [hu] at hsame⟩
      | _ =>
        rw [hu] at hsame
        exact hsame.elim
    · cases hu : exec i u with
      | fault e' => rfl
      | _ =>
        rw [hu] at hsame
        exact hsame.elim
    · cases hu : exec i u with
      | refused e' =>
        rw [hu] at hsame
        exact congrArg _ hsame
      | _ =>
        rw [hu] at hsame
        exact hsame.elim

end Sys2Proof.Machine

/-! PROOFS. The steering state machine: one sample, a run of samples, and the statements O49 to O51 of
46_adjacent_units.md section 1. -/

namespace Sys2Proof.Machine

open Sys2Proof

/-! One sample -/

section Sample
variable {s : State} {a : AnglePort}

theorem exec_fsmSample_invalid (s : State) (a : AnglePort) :
    exec (.fsmSample false a) s
      = .next { s with cntLeft := 0, cntRight := 0, cntCenter := 0, resp := .empty } := rfl

theorem exec_fsmSample_center (h : s.steer = .center) :
    exec (.fsmSample true a) s = .next { sampleCenter s a with resp := .empty } := by
  simp only [exec, execFsmSample, h, if_true, respond]

theorem exec_fsmSample_turned (h : s.steer ≠ .center) :
    exec (.fsmSample true a) s = .next { sampleTurned s a with resp := .empty } := by
  cases hs : s.steer with
  | center => exact absurd hs h
  | left | right => simp only [exec, execFsmSample, hs, if_true, respond]

theorem exec_fsmSample_completes (s : State) (a : AnglePort) : ∃ t, exec (.fsmSample true a) s = .next t := by
  by_cases h : s.steer = .center
  · exact ⟨_, exec_fsmSample_center h⟩
  · exact ⟨_, exec_fsmSample_turned h⟩

/-- With a positive threshold one angle cannot pass both turn tests (R283). -/
theorem turnsRight_of_turnsLeft {cfg : Config} (hth : 0 < cfg.thTurn) (h : turnsLeft cfg a = true) :
    turnsRight cfg a = false := by
  refine Bool.eq_false_iff.mpr fun hr => ?_
  rcases turnsLeft_iff.mp h with ⟨q, hq, hle⟩ | hinf <;> rcases turnsRight_iff.mp hr with ⟨p, hp, hge⟩ | hinf'
  · cases hq.symm.trans hp
    linarith
  · cases hq.symm.trans hinf'
  · cases hinf.symm.trans hp
  · cases hinf.symm.trans hinf'

theorem turnsLeft_of_turnsRight {cfg : Config} (hth : 0 < cfg.thTurn) (h : turnsRight cfg a = true) :
    turnsLeft cfg a = false := by
  refine Bool.eq_false_iff.mpr fun hl => ?_
  simp [turnsRight_of_turnsLeft hth hl] at h

/-! A test fails for a value beyond its threshold and for a NaN (R281; IEEE 754) -/

theorem turnsLeft_fails {cfg : Config}
    (h : (∃ q, angleValue a = .fin q ∧ -cfg.thTurn < q ∧ q < cfg.thTurn) ∨ angleValue a = .nan) :
    turnsLeft cfg a = false := by
  rcases h with ⟨q, hq, -, hlt⟩ | hnan
  · simp [turnsLeft, numGe, hq, hlt]
  · simp [turnsLeft, numGe, hnan]

theorem turnsRight_fails {cfg : Config}
    (h : (∃ q, angleValue a = .fin q ∧ -cfg.thTurn < q ∧ q < cfg.thTurn) ∨ angleValue a = .nan) :
    turnsRight cfg a = false := by
  rcases h with ⟨q, hq, hgt, -⟩ | hnan
  · simp [turnsRight, numLe, hq, hgt]
  · simp [turnsRight, numLe, hnan]

theorem nearCenter_fails {cfg : Config}
    (h : (∃ q, angleValue a = .fin q ∧ (q < -cfg.thCenter ∨ cfg.thCenter < q))
      ∨ (∃ negative, angleValue a = .inf negative) ∨ angleValue a = .nan) : nearCenter cfg a = false := by
  rcases h with ⟨q, hq, hlt | hgt⟩ | ⟨negative, hinf⟩ | hnan
  · simp [nearCenter, numGe, hq, hlt]
  · simp [nearCenter, numLe, hq, hgt]
  · cases negative <;> simp [nearCenter, numGe, numLe, hinf]
  · simp [nearCenter, numGe, hnan]

/-! Where the sample in `CENTER` leads (R283) -/

theorem sampleCenter_left_counts (hN : 1 ≤ s.cfg.debounceN) (hl : turnsLeft s.cfg a = true)
    (hr : turnsRight s.cfg a = false) (h : s.cntLeft + 1 < s.cfg.debounceN) :
    sampleCenter s a = { s with cntLeft := s.cntLeft + 1, cntRight := 0 } := by
  simp only [sampleCenter, hl, hr, countRun, if_true, Bool.false_eq_true, if_false]
  rw [if_neg (by omega), if_neg (by omega)]

theorem sampleCenter_left_turns (hl : turnsLeft s.cfg a = true) (hr : turnsRight s.cfg a = false)
    (h : s.cfg.debounceN ≤ s.cntLeft + 1) :
    sampleCenter s a = enterSteer { s with cntLeft := s.cntLeft + 1, cntRight := 0 } .left turnLeft := by
  simp only [sampleCenter, hl, hr, countRun, if_true, Bool.false_eq_true, if_false]
  rw [if_pos h]

theorem sampleCenter_right_counts (hN : 1 ≤ s.cfg.debounceN) (hl : turnsLeft s.cfg a = false)
    (hr : turnsRight s.cfg a = true) (h : s.cntRight + 1 < s.cfg.debounceN) :
    sampleCenter s a = { s with cntLeft := 0, cntRight := s.cntRight + 1 } := by
  simp only [sampleCenter, hl, hr, countRun, if_true, Bool.false_eq_true, if_false]
  rw [if_neg (by omega), if_neg (by omega)]

theorem sampleCenter_right_turns (hN : 1 ≤ s.cfg.debounceN) (hl : turnsLeft s.cfg a = false)
    (hr : turnsRight s.cfg a = true) (h : s.cfg.debounceN ≤ s.cntRight + 1) :
    sampleCenter s a = enterSteer { s with cntLeft := 0, cntRight := s.cntRight + 1 } .right turnRight := by
  simp only [sampleCenter, hl, hr, countRun, if_true, Bool.false_eq_true, if_false]
  rw [if_neg (by omega), if_pos h]

theorem sampleCenter_neither (hN : 1 ≤ s.cfg.debounceN) (hl : turnsLeft s.cfg a = false)
    (hr : turnsRight s.cfg a = false) : sampleCenter s a = { s with cntLeft := 0, cntRight := 0 } := by
  simp only [sampleCenter, hl, hr, countRun, Bool.false_eq_true, if_false]
  rw [if_neg (by omega), if_neg (by omega)]

/-! Where the sample in `LEFT` or `RIGHT` leads (R283) -/

theorem sampleTurned_counts (hc : nearCenter s.cfg a = true) (h : s.cntCenter + 1 < s.cfg.debounceN) :
    sampleTurned s a = { s with cntCenter := s.cntCenter + 1 } := by
  simp only [sampleTurned, hc, countRun, if_true]
  rw [if_neg (by omega)]

theorem sampleTurned_returns (hc : nearCenter s.cfg a = true) (h : s.cfg.debounceN ≤ s.cntCenter + 1) :
    sampleTurned s a = enterSteer { s with cntCenter := s.cntCenter + 1 } .center turnBack := by
  simp only [sampleTurned, hc, countRun, if_true]
  rw [if_pos h]

theorem sampleTurned_fails (hN : 1 ≤ s.cfg.debounceN) (hc : nearCenter s.cfg a = false) :
    sampleTurned s a = { s with cntCenter := 0 } := by
  simp only [sampleTurned, hc, countRun, Bool.false_eq_true, if_false]
  rw [if_neg (by omega)]

end Sample

/-- A transition raises its flag, in `ev` as it reads (R283). -/
theorem readEv_enterSteer (s : State) (target : Steer) (m : Byte) :
    readEv (enterSteer s target m) = readEv s ||| (m &&& evValid) := readEv_setFlags { s with steer := target } m

/-- Settles O49: the branches of `FSM_SAMPLE`, with the tests by the kind of value. -/
theorem failingSamplesResetTheDebounce : Obligations.FailingSamplesResetTheDebounce := by
  refine ⟨exec_fsmSample_invalid, fun s a => ?_, fun s a hN hth => ⟨fun hs hq => ?_, fun hs hq => ?_, fun hs hq => ?_⟩,
    fun s a hN => ⟨fun hs hq => ?_, fun hs hq => ?_⟩⟩
  · obtain ⟨t, ht⟩ := exec_fsmSample_completes s a
    have hresp : t.resp = .empty := by
      by_cases hs : s.steer = .center
      · cases (exec_fsmSample_center hs).symm.trans ht
        rfl
      · cases (exec_fsmSample_turned hs).symm.trans ht
        rfl
    exact ⟨t, ht, by rw [← hresp]; exact exec_frame ht⟩
  · have hl := turnsLeft_iff.mpr hq
    have hr := turnsRight_of_turnsLeft hth hl
    rw [exec_fsmSample_center hs]
    refine ⟨fun h => by rw [sampleCenter_left_counts hN hl hr h], fun h => ?_⟩
    rw [sampleCenter_left_turns hl hr h]
    exact ⟨_, rfl, readEv_enterSteer _ _ _, rfl⟩
  · have hr := turnsRight_iff.mpr hq
    have hl := turnsLeft_of_turnsRight hth hr
    rw [exec_fsmSample_center hs]
    refine ⟨fun h => by rw [sampleCenter_right_counts hN hl hr h], fun h => ?_⟩
    rw [sampleCenter_right_turns hN hl hr h]
    exact ⟨_, rfl, readEv_enterSteer _ _ _, rfl⟩
  · have hc := nearCenter_iff.mpr hq
    rw [exec_fsmSample_turned hs]
    refine ⟨fun h => by rw [sampleTurned_counts hc h], fun h => ?_⟩
    rw [sampleTurned_returns hc h]
    exact ⟨_, rfl, readEv_enterSteer _ _ _, rfl⟩
  · rw [exec_fsmSample_center hs, sampleCenter_neither hN (turnsLeft_fails hq) (turnsRight_fails hq)]
  · rw [exec_fsmSample_turned hs, sampleTurned_fails hN (nearCenter_fails hq)]

/-! Runs of samples -/

/-- The run of valid samples of a list of operands. -/
def sampleOps (angles : List AnglePort) : List Instr := angles.map fun a => .fsmSample true a

theorem runOps_samples_complete (angles : List AnglePort) (s : State) :
    ∃ t, runOps (sampleOps angles) s = .next t := by
  induction angles generalizing s with
  | nil => exact ⟨s, rfl⟩
  | cons a rest ih =>
    obtain ⟨u, hu⟩ := exec_fsmSample_completes s a
    obtain ⟨t, ht⟩ := ih u
    exact ⟨t, (runOps_cons hu).trans ht⟩

/-- A run of samples that all pass one test, where `C n` says that `n` have been counted and `D` that the transition
has been made: while fewer than `N` have come they only count, and the `N`th makes the transition (R282 to R285). -/
theorem runOps_samples_count {N : Nat} {Q : AnglePort → Prop} {C : Nat → State → Prop} {D : State → Prop}
    (hcount : ∀ n s a, C n s → Q a → n + 1 < N → ∃ t, exec (.fsmSample true a) s = .next t ∧ C (n + 1) t)
    (hturn : ∀ n s a, C n s → Q a → n + 1 = N → ∃ t, exec (.fsmSample true a) s = .next t ∧ D t)
    {angles : List AnglePort} {n : Nat} {s t : State} (hs : C n s) (hq : ∀ a ∈ angles, Q a)
    (hlen : n + angles.length ≤ N) (hrun : runOps (sampleOps angles) s = .next t) :
    (n + angles.length < N → C (n + angles.length) t) ∧ (n < N → n + angles.length = N → D t) := by
  induction angles generalizing n s with
  | nil =>
    cases hrun
    exact ⟨fun _ => hs, fun hlt heq => absurd heq hlt.ne⟩
  | cons a rest ih =>
    obtain ⟨u, hu, hrest⟩ := runOps_cons_next hrun
    rw [List.length_cons] at hlen ⊢
    have hqa : Q a := hq a (List.mem_cons_self ..)
    have hqrest : ∀ b ∈ rest, Q b := fun b hb => hq b (List.mem_cons_of_mem a hb)
    rcases Nat.lt_or_eq_of_le (show n + 1 ≤ N by omega) with hmore | hlast
    · obtain ⟨v, hv, hcv⟩ := hcount n s a hs hqa hmore
      cases hu.symm.trans hv
      obtain ⟨hfew, hall⟩ := ih hcv hqrest (by omega) hrest
      rw [show n + 1 + rest.length = n + (rest.length + 1) by omega] at hfew hall
      exact ⟨hfew, fun _ => hall hmore⟩
    · obtain ⟨v, hv, hdv⟩ := hturn n s a hs hqa hlast
      cases hu.symm.trans hv
      obtain rfl : rest = [] := List.length_eq_zero_iff.mp (by omega)
      cases hrest
      exact ⟨fun h => by simp at h; omega, fun _ _ => hdv⟩

/-- `n` samples of a run towards one side have been counted since the state `s`. -/
structure Counted (count : State → Nat) (s : State) (n : Nat) (t : State) : Prop where
  cfg : t.cfg = s.cfg
  steer : t.steer = s.steer
  flags : readEv t = readEv s
  count : count t = n

/-- The transition to `target`, with its flag, has been made since the state `s`. -/
structure Turned (target : Steer) (m : Byte) (s t : State) : Prop where
  steer : t.steer = target
  flags : readEv t = readEv s ||| m
  fresh : t.cntLeft = 0 ∧ t.cntRight = 0 ∧ t.cntCenter = 0

section Runs
variable {s t : State} {angles : List AnglePort}

theorem runOps_samples_left (hN : 1 ≤ s.cfg.debounceN) (hth : 0 < s.cfg.thTurn) (hlen : angles.length ≤ s.cfg.debounceN)
    (hzero : s.cntLeft = 0) (hs : s.steer = .center) (hq : ∀ a ∈ angles, turnsLeft s.cfg a = true)
    (hrun : runOps (sampleOps angles) s = .next t) :
    (angles.length < s.cfg.debounceN → Counted State.cntLeft s angles.length t)
      ∧ (angles.length = s.cfg.debounceN → Turned .left 0x01 s t) := by
  have hcount : ∀ n u a, Counted State.cntLeft s n u → turnsLeft s.cfg a = true → n + 1 < s.cfg.debounceN →
      ∃ v, exec (.fsmSample true a) u = .next v ∧ Counted State.cntLeft s (n + 1) v := by
    intro n u a hu hqa hn
    have hl : turnsLeft u.cfg a = true := by rw [hu.cfg]; exact hqa
    have hr := turnsRight_of_turnsLeft (by rw [hu.cfg]; exact hth) hl
    refine ⟨_, exec_fsmSample_center (hu.steer.trans hs), ?_⟩
    rw [sampleCenter_left_counts (by rw [hu.cfg]; exact hN) hl hr (by rw [hu.cfg, hu.count]; exact hn)]
    exact ⟨hu.cfg, hu.steer, hu.flags, congrArg (· + 1) hu.count⟩
  have hturn : ∀ n u a, Counted State.cntLeft s n u → turnsLeft s.cfg a = true → n + 1 = s.cfg.debounceN →
      ∃ v, exec (.fsmSample true a) u = .next v ∧ Turned .left 0x01 s v := by
    intro n u a hu hqa hn
    have hl : turnsLeft u.cfg a = true := by rw [hu.cfg]; exact hqa
    have hr := turnsRight_of_turnsLeft (by rw [hu.cfg]; exact hth) hl
    refine ⟨_, exec_fsmSample_center (hu.steer.trans hs), ?_⟩
    rw [sampleCenter_left_turns hl hr (by rw [hu.cfg, hu.count]; exact hn.ge)]
    exact ⟨rfl, (readEv_enterSteer _ _ _).trans (congrArg (· ||| (0x01 : Byte)) hu.flags), rfl, rfl, rfl⟩
  obtain ⟨hfew, hall⟩ := runOps_samples_count hcount hturn (n := 0) ⟨rfl, rfl, rfl, hzero⟩ hq (by omega) hrun
  rw [Nat.zero_add] at hfew hall
  exact ⟨hfew, hall (by omega)⟩

theorem runOps_samples_right (hN : 1 ≤ s.cfg.debounceN) (hth : 0 < s.cfg.thTurn)
    (hlen : angles.length ≤ s.cfg.debounceN) (hzero : s.cntRight = 0) (hs : s.steer = .center)
    (hq : ∀ a ∈ angles, turnsRight s.cfg a = true) (hrun : runOps (sampleOps angles) s = .next t) :
    (angles.length < s.cfg.debounceN → Counted State.cntRight s angles.length t)
      ∧ (angles.length = s.cfg.debounceN → Turned .right 0x02 s t) := by
  have hcount : ∀ n u a, Counted State.cntRight s n u → turnsRight s.cfg a = true → n + 1 < s.cfg.debounceN →
      ∃ v, exec (.fsmSample true a) u = .next v ∧ Counted State.cntRight s (n + 1) v := by
    intro n u a hu hqa hn
    have hr : turnsRight u.cfg a = true := by rw [hu.cfg]; exact hqa
    have hl := turnsLeft_of_turnsRight (by rw [hu.cfg]; exact hth) hr
    refine ⟨_, exec_fsmSample_center (hu.steer.trans hs), ?_⟩
    rw [sampleCenter_right_counts (by rw [hu.cfg]; exact hN) hl hr (by rw [hu.cfg, hu.count]; exact hn)]
    exact ⟨hu.cfg, hu.steer, hu.flags, congrArg (· + 1) hu.count⟩
  have hturn : ∀ n u a, Counted State.cntRight s n u → turnsRight s.cfg a = true → n + 1 = s.cfg.debounceN →
      ∃ v, exec (.fsmSample true a) u = .next v ∧ Turned .right 0x02 s v := by
    intro n u a hu hqa hn
    have hr : turnsRight u.cfg a = true := by rw [hu.cfg]; exact hqa
    have hl := turnsLeft_of_turnsRight (by rw [hu.cfg]; exact hth) hr
    refine ⟨_, exec_fsmSample_center (hu.steer.trans hs), ?_⟩
    rw [sampleCenter_right_turns (by rw [hu.cfg]; exact hN) hl hr (by rw [hu.cfg, hu.count]; exact hn.ge)]
    exact ⟨rfl, (readEv_enterSteer _ _ _).trans (congrArg (· ||| (0x02 : Byte)) hu.flags), rfl, rfl, rfl⟩
  obtain ⟨hfew, hall⟩ := runOps_samples_count hcount hturn (n := 0) ⟨rfl, rfl, rfl, hzero⟩ hq (by omega) hrun
  rw [Nat.zero_add] at hfew hall
  exact ⟨hfew, hall (by omega)⟩

theorem runOps_samples_back (hN : 1 ≤ s.cfg.debounceN) (hlen : angles.length ≤ s.cfg.debounceN)
    (hzero : s.cntCenter = 0) (hs : s.steer ≠ .center) (hq : ∀ a ∈ angles, nearCenter s.cfg a = true)
    (hrun : runOps (sampleOps angles) s = .next t) :
    (angles.length < s.cfg.debounceN → Counted State.cntCenter s angles.length t)
      ∧ (angles.length = s.cfg.debounceN → Turned .center 0x04 s t) := by
  have hcount : ∀ n u a, Counted State.cntCenter s n u → nearCenter s.cfg a = true → n + 1 < s.cfg.debounceN →
      ∃ v, exec (.fsmSample true a) u = .next v ∧ Counted State.cntCenter s (n + 1) v := by
    intro n u a hu hqa hn
    have hc : nearCenter u.cfg a = true := by rw [hu.cfg]; exact hqa
    refine ⟨_, exec_fsmSample_turned (by rw [hu.steer]; exact hs), ?_⟩
    rw [sampleTurned_counts hc (by rw [hu.cfg, hu.count]; exact hn)]
    exact ⟨hu.cfg, hu.steer, hu.flags, congrArg (· + 1) hu.count⟩
  have hturn : ∀ n u a, Counted State.cntCenter s n u → nearCenter s.cfg a = true → n + 1 = s.cfg.debounceN →
      ∃ v, exec (.fsmSample true a) u = .next v ∧ Turned .center 0x04 s v := by
    intro n u a hu hqa hn
    have hc : nearCenter u.cfg a = true := by rw [hu.cfg]; exact hqa
    refine ⟨_, exec_fsmSample_turned (by rw [hu.steer]; exact hs), ?_⟩
    rw [sampleTurned_returns hc (by rw [hu.cfg, hu.count]; exact hn.ge)]
    exact ⟨rfl, (readEv_enterSteer _ _ _).trans (congrArg (· ||| (0x04 : Byte)) hu.flags), rfl, rfl, rfl⟩
  obtain ⟨hfew, hall⟩ := runOps_samples_count hcount hturn (n := 0) ⟨rfl, rfl, rfl, hzero⟩ hq (by omega) hrun
  rw [Nat.zero_add] at hfew hall
  exact ⟨hfew, hall (by omega)⟩

end Runs

/-- The ranges of the parameters, by name (00_scope.md R7; log entry 1). -/
theorem config_wf {c : Config} (h : c.wf = true) :
    (1 ≤ c.cntW ∧ c.cntW ≤ 32) ∧ 1 ≤ c.tqMin ∧ (c.seg2Max ≤ 255 ∧ c.seg1Max ≤ 255) ∧ 1 ≤ c.prescMin
      ∧ 0 < c.targetDen ∧ c.modeOffset ≤ 7 ∧ 1 ≤ c.debounceN ∧ 0 < c.thTurn := by
  simp only [Config.wf, Bool.and_eq_true, decide_eq_true_eq] at h
  tauto

/-- Settles O50: the three directions of a run. -/
theorem runOfNSamplesCausesOneTransition : Obligations.RunOfNSamplesCausesOneTransition := by
  intro s angles hwf hlen hl hr hc
  obtain ⟨-, -, -, -, -, -, hN, hth⟩ := config_wf hwf
  obtain ⟨t, hrun⟩ := runOps_samples_complete angles s
  refine ⟨t, hrun, fun hs hq => ?_, fun hs hq => ?_, fun hs hq => ?_⟩
  · obtain ⟨hfew, hall⟩ := runOps_samples_left hN hth hlen hl hs (fun a ha => turnsLeft_iff.mpr (hq a ha)) hrun
    exact ⟨fun h => ⟨(hfew h).steer.trans hs, (hfew h).count, (hfew h).flags⟩,
      fun h => ⟨(hall h).steer, (hall h).flags, (hall h).fresh⟩⟩
  · obtain ⟨hfew, hall⟩ := runOps_samples_right hN hth hlen hr hs (fun a ha => turnsRight_iff.mpr (hq a ha)) hrun
    exact ⟨fun h => ⟨(hfew h).steer.trans hs, (hfew h).count, (hfew h).flags⟩,
      fun h => ⟨(hall h).steer, (hall h).flags, (hall h).fresh⟩⟩
  · obtain ⟨hfew, hall⟩ := runOps_samples_back hN hlen hc hs (fun a ha => nearCenter_iff.mpr (hq a ha)) hrun
    exact ⟨fun h => ⟨(hfew h).steer, (hfew h).count, (hfew h).flags⟩,
      fun h => ⟨(hall h).steer, (hall h).flags, (hall h).fresh⟩⟩

end Sys2Proof.Machine

/-! PROOFS. How the flags and the steering state change, said once for every operation, and the statements O24, O41,
O47, O48 and O51 of 41_angle_decode.md section 2, 10_state.md R34, 45_event_flags.md section 3 and 46_adjacent_units.md
section 1. -/

namespace Sys2Proof.Machine

open Sys2Proof

/-! How the flags change -/

/-- The ways an operation can change `ev` as it reads (10_state.md R34). -/
inductive FlagChange (s : State) : Instr → State → Prop
  | kept {i t} (h : readEv t = readEv s) : FlagChange s i t
  | emptied {t} (h : readEv t = 0) : FlagChange s .reset t
  | notified {f t} (h : readEv t = readEv s ||| frameReceived) : FlagChange s (.rxFrame f) t
  | drained {i t} (hi : i = .recvNb ∨ (∃ f, i = .recvBlk f) ∨ ∃ f, i = .mdFetch f)
      (h : readEv t = readEv s &&& ~~~frameReceived) (hresp : t.resp = .frame (some s.mb)) : FlagChange s i t
  | decoded {m t} (h : readEv t = (readEv s &&& ~~~modeMask) ||| desiredFlags m) : FlagChange s .mdApply t
  | raised {mask t} (h : readEv t = readEv s ||| (mask &&& evValid)) : FlagChange s (.evSet mask) t
  | lowered {mask t} (h : readEv t = readEv s &&& ~~~mask) : FlagChange s (.evClear mask) t
  | waited {mask finite t} (h : readEv t = readEv s &&& ~~~mask) (hresp : t.resp = .flags (readEv s) false) :
      FlagChange s (.evWait mask true finite) t
  | turned {a m t} (hm : m = turnLeft ∨ m = turnRight ∨ m = turnBack) (h : readEv t = readEv s ||| m) :
      FlagChange s (.fsmSample true a) t

theorem flagChange_drain {i : Instr} {s t : State} (hi : i = .recvNb ∨ (∃ f, i = .recvBlk f) ∨ ∃ f, i = .mdFetch f)
    (hev : readEv t = readEv (drainMailbox s)) (hresp : t.resp = .frame (some s.mb)) : FlagChange s i t := by
  rw [readEv_drainMailbox] at hev
  split_ifs at hev
  · exact .drained hi hev hresp
  · exact .kept hev

theorem flagChange_waitOrExpire {i : Instr} {s t : State} {finite : Bool} {r : Response}
    (h : waitOrExpire s finite r = .next t) : FlagChange s i t := by
  rw [(waitOrExpire_next h).1]
  exact .kept rfl

/-- What one sample does to the steering state and to the flags: nothing, or a transition with its flag (R283). -/
theorem exec_fsmSample_cases {s t : State} {a : AnglePort} (h : exec (.fsmSample true a) s = .next t) :
    (t.steer = s.steer ∧ readEv t = readEv s)
    ∨ (s.steer = .center ∧ t.steer = .left ∧ readEv t = readEv s ||| turnLeft)
    ∨ (s.steer = .center ∧ t.steer = .right ∧ readEv t = readEv s ||| turnRight)
    ∨ (s.steer ≠ .center ∧ t.steer = .center ∧ readEv t = readEv s ||| turnBack) := by
  by_cases hs : s.steer = .center
  · cases (exec_fsmSample_center hs).symm.trans h
    simp only [sampleCenter]
    split_ifs
    · exact .inr (.inl ⟨hs, rfl, readEv_enterSteer _ _ _⟩)
    · exact .inr (.inr (.inl ⟨hs, rfl, readEv_enterSteer _ _ _⟩))
    · exact .inl ⟨rfl, rfl⟩
  · cases (exec_fsmSample_turned hs).symm.trans h
    simp only [sampleTurned]
    split_ifs
    · exact .inr (.inr (.inr ⟨hs, rfl, readEv_enterSteer _ _ _⟩))
    · exact .inl ⟨rfl, rfl⟩

theorem exec_flagChange {i : Instr} {s t : State} (h : exec i s = .next t) : FlagChange s i t := by
  cases i with
  | idle | tick | rise | fall | capture | getAngle | btSynth | canSend =>
    exact .kept (exec_keeps_group h (g := .ev) rfl)
  | reset =>
    rw [respond_eq_next.mp h]
    exact .emptied (show (0 : Byte) &&& evValid = 0 by decide)
  | rxFrame frame =>
    by_cases hlen : frame.len.toNat ≤ 8
    · have ht := (exec_rxFrame_accepted hlen).symm.trans h
      injection ht with ht
      have hev : readEv t = readEv (notifyFrame { s with mb := frame, mbFull := true }) := by rw [← ht]; rfl
      rw [readEv_notifyFrame] at hev
      split_ifs at hev
      · exact .notified hev
      · exact .kept hev
    · cases (exec_rxFrame_refused (by omega)).symm.trans h
  | recvNb =>
    rcases Bool.eq_false_or_eq_true s.mbFull with hfull | hfull
    · cases (exec_recvNb_full hfull).symm.trans h
      exact flagChange_drain (.inl rfl) rfl rfl
    · cases (exec_recvNb_empty hfull).symm.trans h
      exact .kept rfl
  | recvBlk finite =>
    rcases Bool.eq_false_or_eq_true s.mbFull with hfull | hfull
    · cases (exec_recvBlk_full hfull).symm.trans h
      exact flagChange_drain (.inr (.inl ⟨_, rfl⟩)) rfl rfl
    · exact flagChange_waitOrExpire ((exec_recvBlk_empty hfull).symm.trans h)
  | mdFetch finite =>
    rcases Bool.eq_false_or_eq_true s.mbFull with hfull | hfull
    · cases (exec_mdFetch_full hfull).symm.trans h
      exact flagChange_drain (.inr (.inr ⟨_, rfl⟩)) rfl rfl
    · exact flagChange_waitOrExpire ((exec_mdFetch_empty hfull).symm.trans h)
  | mdApply =>
    rcases Bool.eq_false_or_eq_true s.mdHave with hhave | hhave
    · obtain ⟨u, hu, hev, -⟩ := exec_mdApply_latched hhave
      cases hu.symm.trans h
      cases hd : decodeMode s.cfg s.md with
      | error r => exact .kept (by rw [hev, hd]; rfl)
      | ok m => exact .decoded (m := m) (by rw [hev, hd]; rfl)
    · cases (exec_mdApply_empty hhave).symm.trans h
      exact .kept rfl
  | evSet mask =>
    rw [respond_eq_next.mp h]
    exact .raised (readEv_setFlags s mask)
  | evClear mask =>
    rw [respond_eq_next.mp h]
    exact .lowered (readEv_clearFlags s mask)
  | evWait mask clearOnExit finite =>
    by_cases hup : readEv s &&& mask &&& 0x7F = 0
    · exact flagChange_waitOrExpire ((exec_evWait_down hup).symm.trans h)
    · cases (exec_evWait_up hup).symm.trans h
      cases clearOnExit
      · exact .kept rfl
      · exact .waited (readEv_clearFlags s mask) rfl
  | fsmSample valid a =>
    cases valid with
    | false =>
      cases (exec_fsmSample_invalid s a).symm.trans h
      exact .kept rfl
    | true =>
      rcases exec_fsmSample_cases h with ⟨-, hev⟩ | ⟨-, -, hev⟩ | ⟨-, -, hev⟩ | ⟨-, -, hev⟩
      · exact .kept hev
      · exact .turned (.inl rfl) hev
      · exact .turned (.inr (.inl rfl)) hev
      · exact .turned (.inr (.inr rfl)) hev

/-! Bits of a byte -/

/-- Raising flags within `reach` leaves the others. -/
theorem or_and_not_of_sub {e m reach : Byte} (h : m &&& ~~~reach = 0#8) :
    (e ||| m) &&& ~~~reach = e &&& ~~~reach := by
  rw [BitVec.and_comm, BitVec.and_or_distrib_left, BitVec.and_comm (~~~reach) m, h, BitVec.or_zero, BitVec.and_comm]

/-- Lowering flags within `reach` leaves the others. -/
theorem and_not_and_not_of_sub {e m reach : Byte} (h : m &&& ~~~reach = 0#8) :
    (e &&& ~~~m) &&& ~~~reach = e &&& ~~~reach := by
  ext j hj
  have hj' : (m[j] && !reach[j]) = false := by rw [← BitVec.getElem_not, ← BitVec.getElem_and, h]; simp
  simp only [BitVec.getElem_and, BitVec.getElem_not]
  revert hj'
  cases m[j] <;> cases reach[j] <;> simp

/-- Bit 7 of a mask is ignored, since it reads 0 (10_state.md R34). -/
theorem readEv_and_not_valid (s : State) (m : Byte) : readEv s &&& ~~~(m &&& evValid) = readEv s &&& ~~~m := by
  ext j hj
  simp only [readEv, BitVec.getElem_and, BitVec.getElem_not]
  cases evValid[j] <;> simp

theorem desiredFlags_within (m : CanMode) : desiredFlags m &&& ~~~modeMask = 0#8 := by cases m <;> rfl

/-- Settles O48: every change stays within the reach of its operation. -/
theorem flagBitsBelongToTheirWriters : Obligations.FlagBitsBelongToTheirWriters := by
  intro i s t h
  cases exec_flagChange h with
  | kept hev => rw [hev]
  | emptied hev =>
    rw [hev, ← readEv_valid s, evReach, BitVec.and_assoc]
    simp
  | notified hev => rw [hev, evReach, or_and_not_of_sub (BitVec.and_not_self _)]
  | drained hi hev =>
    rw [hev]
    rcases hi with rfl | ⟨f, rfl⟩ | ⟨f, rfl⟩
    all_goals exact and_not_and_not_of_sub (BitVec.and_not_self frameReceived)
  | decoded hev =>
    rw [hev, evReach, or_and_not_of_sub (desiredFlags_within _), BitVec.and_assoc, BitVec.and_self]
  | raised hev => rw [hev, evReach, or_and_not_of_sub (BitVec.and_not_self _)]
  | lowered hev => rw [hev, ← readEv_and_not_valid, evReach, BitVec.and_assoc, BitVec.and_self]
  | waited hev => rw [hev, ← readEv_and_not_valid, evReach, BitVec.and_assoc, BitVec.and_self]
  | @turned a m t hm hev =>
    have hwithin : m &&& ~~~turnMask = 0#8 := by
      rcases hm with rfl | rfl | rfl <;> decide
    rw [hev, evReach, or_and_not_of_sub hwithin]

/-! A flag that falls -/

section Falls
variable {e m : Byte} {b : Nat}

theorem mask_of_fall (hup : e.getLsbD b = true) (hdown : (e &&& ~~~m).getLsbD b = false) : m.getLsbD b = true := by
  have hb : b < 8 := BitVec.lt_of_getLsbD hup
  simpa [BitVec.getLsbD_and, BitVec.getLsbD_not, hup, hb] using hdown

theorem no_fall_of_or (hup : e.getLsbD b = true) : (e ||| m).getLsbD b = true := by
  rw [BitVec.getLsbD_or, hup, Bool.true_or]

theorem bit_of_frameReceived (h : frameReceived.getLsbD b = true) : b = 6 := by
  have hb : b < 8 := BitVec.lt_of_getLsbD h
  revert h
  interval_cases b <;> decide

theorem bit_of_modeMask (h : modeMask.getLsbD b = true) : 3 ≤ b ∧ b ≤ 5 := by
  have hb : b < 8 := BitVec.lt_of_getLsbD h
  revert h
  interval_cases b <;> decide

end Falls

/-- Settles O47: the changes that lower a flag, each with what it names. -/
theorem noFlagIsLostUnseen : Obligations.NoFlagIsLostUnseen := by
  intro i s t b h hup hdown
  have hstays : ∀ {m : Byte}, readEv t ≠ readEv s ||| m := by
    rintro m hev
    rw [hev, no_fall_of_or hup] at hdown
    cases hdown
  cases exec_flagChange h with
  | kept hev => simp [hev, hup] at hdown
  | emptied hev => exact .inl rfl
  | notified hev => exact absurd hev hstays
  | raised hev => exact absurd hev hstays
  | turned hm hev => exact absurd hev hstays
  | lowered hev =>
    rw [hev] at hdown
    exact .inr (.inl ⟨_, rfl, mask_of_fall hup hdown⟩)
  | waited hev hresp =>
    rw [hev] at hdown
    exact .inr (.inr (.inl ⟨_, _, _, rfl, mask_of_fall hup hdown, hresp, hup⟩))
  | decoded hev =>
    rw [hev, BitVec.getLsbD_or, Bool.or_eq_false_iff] at hdown
    exact .inr (.inr (.inr (.inl ⟨rfl, bit_of_modeMask (mask_of_fall hup hdown.1)⟩)))
  | drained hi hev hresp =>
    rw [hev] at hdown
    exact .inr (.inr (.inr (.inr ⟨bit_of_frameReceived (mask_of_fall hup hdown), hi, hresp⟩)))

/-! The mode field -/

/-- The mode field holds at most one flag (44_can_mode_decode.md R238). -/
def ModeExclusive (e : Byte) : Prop := e &&& 0x38 ∈ [(0x00 : Byte), 0x08, 0x10, 0x20]

section ModeField
variable {e m : Byte}

theorem modeExclusive_and (h : ModeExclusive e) (m : Byte) : ModeExclusive (e &&& m) := by
  have hmove : (e &&& m) &&& 0x38 = (e &&& 0x38) &&& m := by
    rw [BitVec.and_assoc, BitVec.and_comm m, ← BitVec.and_assoc]
  unfold ModeExclusive at h ⊢
  rw [hmove]
  clear hmove
  generalize e &&& 0x38 = x at h
  simp only [List.mem_cons, List.not_mem_nil, or_false] at h
  rcases h with rfl | rfl | rfl | rfl <;> revert m <;> decide +kernel

theorem modeExclusive_or (h : ModeExclusive e) (hm : (0x38 : Byte) &&& m = 0#8) : ModeExclusive (e ||| m) := by
  unfold ModeExclusive at h ⊢
  rwa [BitVec.and_comm, BitVec.and_or_distrib_left, hm, BitVec.or_zero, BitVec.and_comm]

theorem modeExclusive_decoded (e : Byte) (m : CanMode) : ModeExclusive ((e &&& ~~~modeMask) ||| desiredFlags m) := by
  have hfield : ((e &&& ~~~modeMask) ||| desiredFlags m) &&& 0x38 = desiredFlags m := by
    rw [BitVec.and_comm, BitVec.and_or_distrib_left, BitVec.and_comm, BitVec.and_assoc,
      show ~~~modeMask &&& 0x38 = 0#8 by decide, BitVec.and_zero, BitVec.zero_or]
    cases m <;> decide
  rw [ModeExclusive, hfield]
  cases m <;> decide

end ModeField

/-- Settles O41: only `EV_SET` raises a mode flag beside another. -/
theorem modeFlagsStayExclusive : Obligations.ModeFlagsStayExclusive := by
  intro i s t h
  have hchange := exec_flagChange h
  refine ⟨fun hset hs => ?_, ?_⟩
  · change ModeExclusive (readEv s) at hs
    change ModeExclusive (readEv t)
    cases hchange with
    | kept hev => rwa [hev]
    | emptied hev => rw [hev, ModeExclusive]; decide
    | notified hev => rw [hev]; exact modeExclusive_or hs (by decide)
    | drained hi hev => rw [hev]; exact modeExclusive_and hs _
    | decoded hev => rw [hev]; exact modeExclusive_decoded _ _
    | raised hev => exact absurd rfl (hset _)
    | lowered hev => rw [hev]; exact modeExclusive_and hs _
    | waited hev => rw [hev]; exact modeExclusive_and hs _
    | turned hm hev =>
      rw [hev]
      rcases hm with rfl | rfl | rfl
      all_goals exact modeExclusive_or hs (by decide)
  · rintro rfl hne
    cases hchange with
    | kept hev => exact absurd hev hne
    | drained hi hev => simp at hi
    | decoded hev => rw [hev]; exact modeExclusive_decoded _ _

/-! The steering state -/

/-- Settles O51: the groups of the other operations' rows, and the branches of a valid sample. -/
theorem steeringNeverFlipsDirectly : Obligations.SteeringNeverFlipsDirectly := by
  intro i s t h hreset hne
  cases hw : mayWrite i .steering with
  | false =>
    obtain ⟨hsteer, -⟩ := exec_keeps_group h hw
    exact absurd hsteer hne
  | true =>
    cases i with
    | reset => exact absurd rfl hreset
    | fsmSample valid a =>
      cases valid with
      | false =>
        cases (exec_fsmSample_invalid s a).symm.trans h
        exact absurd rfl hne
      | true =>
        refine ⟨⟨a, rfl⟩, ?_⟩
        rcases exec_fsmSample_cases h with ⟨hsteer, -⟩ | ⟨hs, ht, hev⟩ | ⟨hs, ht, hev⟩ | ⟨hs, ht, hev⟩
        · exact absurd hsteer hne
        · exact .inl ⟨hs, ht, by rw [hev, BitVec.getLsbD_or]; simp [turnLeft]⟩
        · exact .inr (.inl ⟨hs, ht, by rw [hev, BitVec.getLsbD_or]; simp [turnRight]⟩)
        · exact .inr (.inr ⟨hs, ht, by rw [hev, BitVec.getLsbD_or]; simp [turnBack]⟩)
    | _ => simp [mayWrite] at hw

/-! What `GET_ANGLE` can answer -/

/-- A `GET_ANGLE` fails, or takes the zero reference, or gives the relative angle of an accepted pair
(41_angle_decode.md R150 to R157). -/
theorem exec_getAngle_cases {s t : State} (h : exec .getAngle s = .next t) :
    t = { s with hasNew := false, resp := .angle none }
    ∨ (s.zeroInit = false ∧ 0 < s.pulseTicks.toNat ∧ s.pulseTicks.toNat < s.periodTicks.toNat ∧ ∃ a,
        absoluteAngle s.cfg s.periodTicks s.pulseTicks = some a
        ∧ t = { s with hasNew := false, zeroDegrees := a, zeroInit := true, resp := .angle none })
    ∨ (s.zeroInit = true ∧ 0 < s.pulseTicks.toNat ∧ s.pulseTicks.toNat < s.periodTicks.toNat ∧ ∃ a rel,
        absoluteAngle s.cfg s.periodTicks s.pulseTicks = some a ∧ relativeAngle s.cfg a s.zeroDegrees = some rel
        ∧ t = { s with hasNew := false, resp := .angle (some rel) }) := by
  rw [exec_getAngle] at h
  rcases Bool.eq_false_or_eq_true s.hasNew with hn | hn
  · by_cases hr : s.periodTicks.toNat = 0 ∨ s.pulseTicks.toNat = 0 ∨ s.periodTicks.toNat ≤ s.pulseTicks.toNat
    · rw [execGetAngle_rejected hn hr] at h
      cases h
      exact .inl rfl
    · have hlt : s.pulseTicks.toNat < s.periodTicks.toNat := by omega
      obtain ⟨a, ha, -⟩ := absoluteAngle_range s.cfg hlt
      rw [execGetAngle_accepted hn (by omega) hlt] at h
      split_ifs at h with hz
      · simp only [takeZero, ha] at h
        exact .inr (.inl ⟨hz, by omega, hlt, a, ha, respond_eq_next.mp h⟩)
      · simp only [takeRelative, ha] at h
        split at h
        · cases h
        · rename_i rel hrel
          exact .inr (.inr ⟨by simpa using hz, by omega, hlt, a, rel, ha, hrel, respond_eq_next.mp h⟩)
  · rw [execGetAngle_noNewCapture hn] at h
    cases h
    exact .inl (by rw [← hn])

/-- Settles O24: the groups of the other operations' rows, and the branches of `GET_ANGLE`. -/
theorem zeroReferenceIsSetOnce : Obligations.ZeroReferenceIsSetOnce := by
  intro i s t h hreset
  cases hw : mayWrite i .zeroReference with
  | false =>
    obtain ⟨hinit, hdegrees⟩ := exec_keeps_group h hw
    exact ⟨fun hs => ⟨hinit.trans hs, hdegrees⟩, fun hs ht => by simp [hinit, hs] at ht⟩
  | true =>
    cases i with
    | reset => exact absurd rfl hreset
    | getAngle =>
      rcases exec_getAngle_cases h with rfl | ⟨hz, -, -, a, -, rfl⟩ | ⟨hz, -, -, a, rel, -, -, rfl⟩
      · exact ⟨fun hs => ⟨hs, rfl⟩, fun _ _ => ⟨rfl, rfl⟩⟩
      · exact ⟨fun hs => by simp [hs] at hz, fun _ _ => ⟨rfl, rfl⟩⟩
      · exact ⟨fun hs => ⟨hs, rfl⟩, fun hs => by simp [hs] at hz⟩
    | _ => simp [mayWrite] at hw

end Sys2Proof.Machine

/-! PROOFS. The angle decode over the rationals: the loop of `wrap180` and its closed form, what `GET_ANGLE` answers
for an accepted pair, and the statements O20, O21, O23, O25 and O26 of 41_angle_decode.md sections 2 and 3. -/

namespace Sys2Proof.Machine

open Sys2Proof

/-! The loop of `wrap180` -/

/-- A loop that adds `c` and goes on for exactly `n` turns, within its fuel. -/
theorem whileLoop_turns {test : Rat → Bool} {c x : Rat} {n fuel : Nat} (hfuel : n ≤ fuel)
    (hgo : ∀ k : Nat, k < n → test (x + c * k) = true) (hstop : test (x + c * n) = false) :
    whileLoop test (fun y => y + c) fuel x = some (x + c * n) := by
  induction n generalizing x fuel with
  | zero =>
    simp only [Nat.cast_zero, mul_zero, add_zero] at hstop ⊢
    exact whileLoop_stop fuel hstop
  | succ n ih =>
    obtain ⟨m, rfl⟩ : ∃ m, fuel = m + 1 := ⟨fuel - 1, by omega⟩
    have hshift (k : Nat) : x + c + c * k = x + c * (k + 1 : Nat) := by
      push_cast
      ring
    have hfirst : test x = true := by simpa using hgo 0 (by omega)
    rw [whileLoop, if_pos hfirst, ← hshift]
    exact ih (by omega) (fun k hk => by rw [hshift]; exact hgo (k + 1) (by omega)) (by rw [hshift]; exact hstop)

theorem abs_eq_natAbs_div (q : Rat) : |q| = (q.num.natAbs : Rat) / q.den := by
  have h := rat_eq_natAbs_div (abs_nonneg q)
  rwa [Rat.num_abs_eq_abs_num, Rat.den_abs_eq_den, Int.natAbs_abs] at h

/-- A loop never takes more turns than `turnBound` allows, since each turn moves 360 (log entry 6). -/
theorem turns_le_turnBound {x : Rat} {n : Nat} (h : 360 * ((n : Rat) - 1) ≤ |x|) : n ≤ turnBound x := by
  have hden : (0 : Rat) < 256 * x.den := by exact_mod_cast (by have := x.den_pos; omega : 0 < 256 * x.den)
  have hdiv : x.num.natAbs < 256 * x.den * (x.num.natAbs / (256 * x.den) + 1) := Nat.lt_mul_div_succ _ (by
    have := x.den_pos; omega)
  have hdiv' : (x.num.natAbs : Rat) < 256 * x.den * (((x.num.natAbs / (256 * x.den) : Nat) : Rat) + 1) := by
    exact_mod_cast hdiv
  have hlt : |x| < 256 * (((x.num.natAbs / (256 * x.den) : Nat) : Rat) + 1) := by
    rw [abs_eq_natAbs_div, div_lt_iff₀ (by exact_mod_cast x.den_pos)]
    linarith
  have hn : ((n : Rat) - 1) < ((x.num.natAbs / (256 * x.den) : Nat) : Rat) + 1 := by
    have : (0 : Rat) ≤ ((x.num.natAbs / (256 * x.den) : Nat) : Rat) := by positivity
    linarith
  have hn' : n < x.num.natAbs / (256 * x.den) + 2 := by
    have : (n : Rat) < ((x.num.natAbs / (256 * x.den) + 2 : Nat) : Rat) := by push_cast; linarith
    exact_mod_cast this
  rw [turnBound]
  omega

theorem rational_down : (fun y => numRound .rational (y - 360)) = fun y => y + -360 :=
  funext fun y => sub_eq_add_neg y 360

/-- From above 180 the first loop subtracts `⌈(x - 180) / 360⌉` turns, and the second finds nothing to do. -/
theorem wrap180_above {x : Rat} (h : 180 < x) :
    wrap180 .rational x = some (x - 360 * (⌈(x - 180) / 360⌉ : Rat)) := by
  have hpos : 0 < ⌈(x - 180) / 360⌉ := Int.ceil_pos.mpr (by linarith)
  obtain ⟨n, hn⟩ := Int.eq_ofNat_of_zero_le hpos.le
  have hle := Int.le_ceil ((x - 180) / 360)
  have hlt := Int.ceil_lt_add_one ((x - 180) / 360)
  rw [hn] at hpos hle hlt ⊢
  push_cast at hle hlt ⊢
  have hloop : whileLoop (fun y => decide (180 < y)) (fun y => numRound .rational (y - 360)) (turnBound x) x
      = some (x + -360 * n) := by
    rw [rational_down]
    refine whileLoop_turns (turns_le_turnBound ?_) (fun k hk => ?_) ?_
    · rw [abs_of_pos (by linarith)]
      linarith
    · have hk' : (k : Rat) + 1 ≤ n := by exact_mod_cast hk
      simp only [decide_eq_true_eq]
      linarith
    · simp only [decide_eq_false_iff_not, not_lt]
      linarith
  rw [wrap180, foldTurn, hloop, show x - 360 * (n : Rat) = x + -360 * n by ring]
  refine whileLoop_stop _ ?_
  simp only [decide_eq_false_iff_not, not_lt]
  linarith

/-- From below -180 the first loop finds nothing to do, and the second adds `⌈(-180 - x) / 360⌉` turns. -/
theorem wrap180_below {x : Rat} (h : x < -180) :
    wrap180 .rational x = some (x + 360 * (⌈(-180 - x) / 360⌉ : Rat)) := by
  have hpos : 0 < ⌈(-180 - x) / 360⌉ := Int.ceil_pos.mpr (by linarith)
  obtain ⟨n, hn⟩ := Int.eq_ofNat_of_zero_le hpos.le
  have hle := Int.le_ceil ((-180 - x) / 360)
  have hlt := Int.ceil_lt_add_one ((-180 - x) / 360)
  rw [hn] at hpos hle hlt ⊢
  push_cast at hle hlt ⊢
  have habove : (fun y : Rat => decide (180 < y)) x = false := by
    simp only [decide_eq_false_iff_not, not_lt]
    linarith
  rw [wrap180, foldTurn, whileLoop_stop _ habove]
  refine whileLoop_turns (turns_le_turnBound ?_) (fun k hk => ?_) ?_
  · rw [abs_of_neg (by linarith)]
    linarith
  · have hk' : (k : Rat) + 1 ≤ n := by exact_mod_cast hk
    simp only [decide_eq_true_eq]
    linarith
  · simp only [decide_eq_false_iff_not, not_lt]
    linarith

/-- Settles O26. -/
theorem wrap180EqualsItsClosedForm : Obligations.Wrap180EqualsItsClosedForm :=
  fun _ => ⟨wrap180_above, wrap180_below, wrap180_kept .rational⟩

/-- `wrap180` over the rationals: the range, the congruence, and the side a correction stays on. -/
theorem wrap180_rational (x : Rat) : ∃ (y : Rat) (k : Int), wrap180 .rational x = some y
    ∧ -180 ≤ y ∧ y ≤ 180 ∧ y = x + 360 * (k : Rat) ∧ (k < 0 → -180 < y) ∧ (0 < k → y < 180) := by
  rcases lt_or_ge 180 x with h | h
  · have hpos : 0 < ⌈(x - 180) / 360⌉ := Int.ceil_pos.mpr (by linarith)
    have hle := Int.le_ceil ((x - 180) / 360)
    have hlt := Int.ceil_lt_add_one ((x - 180) / 360)
    exact ⟨_, -⌈(x - 180) / 360⌉, wrap180_above h, by linarith, by linarith, by push_cast; ring,
      fun _ => by linarith, fun hk => by omega⟩
  · rcases lt_or_ge x (-180) with h' | h'
    · have hpos : 0 < ⌈(-180 - x) / 360⌉ := Int.ceil_pos.mpr (by linarith)
      have hle := Int.le_ceil ((-180 - x) / 360)
      have hlt := Int.ceil_lt_add_one ((-180 - x) / 360)
      exact ⟨_, ⌈(-180 - x) / 360⌉, wrap180_below h', by linarith, by linarith, rfl, fun hk => by omega,
        fun _ => by linarith⟩
    · exact ⟨x, 0, wrap180_kept .rational h' h, h', h, by simp, fun hk => absurd hk (lt_irrefl 0),
        fun hk => absurd hk (lt_irrefl 0)⟩

/-- The closed form is odd (R159 (g)). -/
theorem wrap180_neg {x y : Rat} (h : wrap180 .rational x = some y) : wrap180 .rational (-x) = some (-y) := by
  rcases lt_or_ge 180 x with hx | hx
  · rw [wrap180_above hx] at h
    cases h
    rw [wrap180_below (by linarith), show -180 - -x = x - 180 by ring]
    congr 1
    ring
  · rcases lt_or_ge x (-180) with hx' | hx'
    · rw [wrap180_below hx'] at h
      cases h
      rw [wrap180_above (by linarith), show -x - 180 = -180 - x by ring]
      congr 1
      ring
    · rw [wrap180_kept .rational hx' hx] at h
      cases h
      exact wrap180_kept .rational (by linarith) (by linarith)

/-- Settles O25: the range gives the identity and the idempotence, the closed form the oddness. -/
theorem wrap180Laws : Obligations.Wrap180Laws := by
  intro x
  obtain ⟨y, k, hy, hlo, hhi, hk, -, -⟩ := wrap180_rational x
  refine ⟨y, k, hy, hlo, hhi, hk, ⟨?_, fun ⟨h, h'⟩ => ?_⟩, wrap180_kept .rational hlo hhi, wrap180_neg hy⟩
  · rintro rfl
    exact ⟨hlo, hhi⟩
  · rw [wrap180_kept .rational h h'] at hy
    cases hy
    rfl

/-! `GET_ANGLE` on an accepted pair -/

theorem exec_getAngle_zero {s : State} {a : Rat} (hn : s.hasNew = true) (hz : s.zeroInit = false)
    (h0 : 0 < s.pulseTicks.toNat) (h1 : s.pulseTicks.toNat < s.periodTicks.toNat)
    (ha : absoluteAngle s.cfg s.periodTicks s.pulseTicks = some a) :
    exec .getAngle s
      = .next { s with hasNew := false, zeroInit := true, zeroDegrees := a, resp := .angle none } := by
  rw [exec_getAngle, execGetAngle_accepted hn h0 h1, if_pos hz]
  simp only [takeZero, ha, respond]

theorem exec_getAngle_relative {s : State} {a rel : Rat} (hn : s.hasNew = true) (hz : s.zeroInit = true)
    (h0 : 0 < s.pulseTicks.toNat) (h1 : s.pulseTicks.toNat < s.periodTicks.toNat)
    (ha : absoluteAngle s.cfg s.periodTicks s.pulseTicks = some a)
    (hrel : relativeAngle s.cfg a s.zeroDegrees = some rel) :
    exec .getAngle s = .next { s with hasNew := false, resp := .angle (some rel) } := by
  rw [exec_getAngle, execGetAngle_accepted hn h0 h1, if_neg (by simp [hz])]
  simp only [takeRelative, ha, hrel, respond]

/-- Settles O20. -/
theorem firstAcceptedPairBecomesTheZeroReference : Obligations.FirstAcceptedPairBecomesTheZeroReference :=
  fun _ hnum hn hz h0 h1 => exec_getAngle_zero hn hz h0 h1 (absoluteAngle_rational hnum h0 h1)

/-- Settles O21: the difference is exact, and `wrap180` corrects it by whole turns. -/
theorem relativeAngleIsTheWrappedDifference : Obligations.RelativeAngleIsTheWrappedDifference := by
  intro s hnum hn hz h0 h1
  have ha := absoluteAngle_rational hnum h0 h1
  obtain ⟨rel, k, hrel, hlo, hhi, hk, hneg, hpos⟩ := wrap180_rational (_ - s.zeroDegrees)
  refine ⟨rel, k, exec_getAngle_relative hn hz h0 h1 ha ?_, hlo, hhi, hk, hneg, hpos⟩
  rw [relativeAngle, hnum]
  exact hrel

/-- In a state of a run `GET_ANGLE` ends in either number domain, whatever the pair is (R165). -/
theorem exec_getAngle_completes {s : State} (hinv : Inv s) : ∃ t, exec .getAngle s = .next t := by
  rcases Bool.eq_false_or_eq_true s.hasNew with hn | hn
  · by_cases hr : s.periodTicks.toNat = 0 ∨ s.pulseTicks.toNat = 0 ∨ s.periodTicks.toNat ≤ s.pulseTicks.toNat
    · exact ⟨_, execGetAngle_rejected hn hr⟩
    · have hlt : s.pulseTicks.toNat < s.periodTicks.toNat := by omega
      rw [exec_getAngle, execGetAngle_accepted hn (by omega) hlt]
      rcases Bool.eq_false_or_eq_true s.zeroInit with hz | hz
      · obtain ⟨rel, hrel⟩ := takeRelative_next hlt (hinv.zero.low hz) (hinv.zero.high hz)
        exact ⟨_, by rw [if_neg (by simp [hz]), hrel]⟩
      · obtain ⟨a, ha⟩ := takeZero_next hlt
        exact ⟨_, by rw [if_pos hz, ha]⟩
  · exact ⟨_, execGetAngle_noNewCapture hn⟩

/-- Settles O23: the frame of `GET_ANGLE`, and the range of the relative angle for a reference in `[0, 360)`. -/
theorem anglesOfARunStayWithinHalfATurn : Obligations.AnglesOfARunStayWithinHalfATurn := by
  intro s hinv
  obtain ⟨t, ht⟩ := exec_getAngle_completes hinv
  refine ⟨t, ht, ?_, fun rel hresp => ?_⟩
  · rw [← execGetAngle_hasNew ht]
    exact exec_frame ht
  · rcases exec_getAngle_cases ht with rfl | ⟨-, -, -, a, -, rfl⟩ | ⟨hz, -, hlt, a, rel', ha, hrel, rfl⟩
    · cases hresp
    · cases hresp
    · injection hresp with hresp
      injection hresp with hresp
      subst hresp
      obtain ⟨a', ha', ha0, ha1⟩ := absoluteAngle_range s.cfg hlt
      obtain ⟨r, hr, hlo, hhi⟩ := relativeAngle_range s.cfg ha0 ha1 (hinv.zero.low hz) (hinv.zero.high hz)
      cases ha.symm.trans ha'
      cases hrel.symm.trans hr
      exact ⟨hlo, hhi⟩

end Sys2Proof.Machine

/-! PROOFS. Rounding to binary32: the values a pattern can have, the nearest of them, the pattern of a rounded value,
and the statement O27 of 00_scope.md R10. -/

namespace Sys2Proof.Machine

open Sys2Proof

/-! The nearest quotient -/

/-- The distance from `n = d * q + r` to a multiple of `d`: that of the two neighbours, or more. -/
theorem dist_multiple {d r q n : Int} (h0 : 0 ≤ r) (h1 : r < d) (hn : n = d * q + r) (N : Int) :
    (N = q ∧ |N * d - n| = r) ∨ (N = q + 1 ∧ |N * d - n| = d - r)
      ∨ (N ≠ q ∧ N ≠ q + 1 ∧ (r + d ≤ |N * d - n| ∨ 2 * d - r ≤ |N * d - n|)) := by
  have hdist : N * d - n = (N - q) * d - r := by rw [hn]; ring
  rw [hdist]
  obtain hj | hj | hj | hj : N - q ≤ -1 ∨ N - q = 0 ∨ N - q = 1 ∨ 2 ≤ N - q := by omega
  · have hprod : (N - q) * d ≤ -d := by nlinarith
    rw [abs_of_neg (by linarith)]
    exact .inr (.inr ⟨by omega, by omega, .inl (by linarith)⟩)
  · rw [hj, zero_mul, zero_sub, abs_neg, abs_of_nonneg h0]
    exact .inl ⟨by omega, rfl⟩
  · rw [hj, one_mul, abs_of_pos (by omega)]
    exact .inr (.inl ⟨by omega, rfl⟩)
  · have hprod : 2 * d ≤ (N - q) * d := by nlinarith
    rw [abs_of_pos (by linarith)]
    exact .inr (.inr ⟨by omega, by omega, .inr (by linarith)⟩)

/-- The three ways of `divHalfEven`: down, up, or to the even neighbour from the middle. -/
theorem divHalfEven_cases (n d : Nat) :
    (divHalfEven n d = n / d ∧ (2 * (n % d) < d ∨ (2 * (n % d) = d ∧ Even (n / d))))
      ∨ (divHalfEven n d = n / d + 1 ∧ (d < 2 * (n % d) ∨ (2 * (n % d) = d ∧ Even (n / d + 1)))) := by
  unfold divHalfEven
  split_ifs with hup hdown hodd
  · exact .inr ⟨rfl, .inl hup⟩
  · exact .inl ⟨rfl, .inl hdown⟩
  · exact .inr ⟨rfl, .inr ⟨by omega, by rw [Nat.even_iff]; omega⟩⟩
  · exact .inl ⟨rfl, .inr ⟨by omega, by rw [Nat.even_iff]; omega⟩⟩

/-- No multiple of `d` is nearer to `n` than the rounded quotient's, and of two equally near the even one is taken. -/
theorem divHalfEven_nearest {n d : Nat} (hd : 0 < d) (N : Int) :
    |(divHalfEven n d : Int) * d - n| ≤ |N * d - n|
      ∧ (N ≠ divHalfEven n d → |N * d - n| = |(divHalfEven n d : Int) * d - n| → Even (divHalfEven n d)) := by
  have hdiv : (n : Int) = d * (n / d : Nat) + (n % d : Nat) := by exact_mod_cast (Nat.div_add_mod n d).symm
  have hmod : ((n % d : Nat) : Int) < d := by exact_mod_cast Nat.mod_lt n hd
  have hdist := dist_multiple (by positivity) hmod hdiv
  rcases divHalfEven_cases n d with ⟨hh, hside⟩ | ⟨hh, hside⟩
  · have hval : |(divHalfEven n d : Int) * d - n| = (n % d : Nat) := by
      rcases hdist (divHalfEven n d) with ⟨-, h⟩ | ⟨h, -⟩ | ⟨h, -, -⟩
      · exact h
      · rw [hh] at h; omega
      · rw [hh] at h; omega
    rw [hval, hh]
    rcases hdist N with ⟨h, h'⟩ | ⟨h, h'⟩ | ⟨-, -, h' | h'⟩
    all_goals refine ⟨by omega, fun hne heq => ?_⟩
    · omega
    · exact (hside.resolve_left (by omega)).2
    · omega
    · omega
  · have hval : |(divHalfEven n d : Int) * d - n| = d - (n % d : Nat) := by
      rcases hdist (divHalfEven n d) with ⟨h, -⟩ | ⟨-, h⟩ | ⟨-, h, -⟩
      · rw [hh] at h; omega
      · exact h
      · rw [hh] at h; omega
    rw [hval, hh]
    rcases hdist N with ⟨h, h'⟩ | ⟨h, h'⟩ | ⟨-, -, h' | h'⟩
    all_goals refine ⟨by omega, fun hne heq => ?_⟩
    · exact (hside.resolve_left (by omega)).2
    · omega
    · omega
    · omega

/-- The same for units of `2 ^ k`. -/
theorem unitsOf_nearest {n d : Nat} {k : Int} {x : Rat} (hd : 0 < d) (hx : x = (n : Rat) / d) (N : Int) :
    |(unitsOf n d k : Rat) * 2 ^ k - x| ≤ |(N : Rat) * 2 ^ k - x|
      ∧ (N ≠ unitsOf n d k → |(N : Rat) * 2 ^ k - x| = |(unitsOf n d k : Rat) * 2 ^ k - x| →
        Even (unitsOf n d k)) := by
  have hD : 0 < d * 2 ^ k.toNat := by positivity
  obtain ⟨hle, htie⟩ := divHalfEven_nearest (n := n * 2 ^ (-k).toNat) hD N
  have hd' : (0 : Rat) < d := by exact_mod_cast hd
  have hmeasure (M : Int) : ((|M * ((d * 2 ^ k.toNat : Nat) : Int) - ((n * 2 ^ (-k).toNat : Nat) : Int)| : Int) : Rat)
      = |(M : Rat) * 2 ^ k - x| * (d * 2 ^ (-k).toNat) := by
    rw [← abs_of_pos (show (0 : Rat) < d * 2 ^ (-k).toNat by positivity), ← abs_mul, hx]
    push_cast
    congr 1
    rw [toNat_pow_split k]
    field_simp
  have hpos : (0 : Rat) < d * 2 ^ (-k).toNat := by positivity
  have hmeasure' := hmeasure (unitsOf n d k)
  rw [Int.cast_natCast] at hmeasure'
  refine ⟨?_, fun hne heq => htie hne ?_⟩
  · have hle' : ((|(unitsOf n d k : Int) * ((d * 2 ^ k.toNat : Nat) : Int) - ((n * 2 ^ (-k).toNat : Nat) : Int)| : Int) : Rat)
        ≤ ((|N * ((d * 2 ^ k.toNat : Nat) : Int) - ((n * 2 ^ (-k).toNat : Nat) : Int)| : Int) : Rat) := by
      exact_mod_cast hle
    rw [hmeasure', hmeasure N] at hle'
    exact le_of_mul_le_mul_right hle' hpos
  · have heq' : ((|N * ((d * 2 ^ k.toNat : Nat) : Int) - ((n * 2 ^ (-k).toNat : Nat) : Int)| : Int) : Rat)
        = ((|(unitsOf n d k : Int) * ((d * 2 ^ k.toNat : Nat) : Int) - ((n * 2 ^ (-k).toNat : Nat) : Int)| : Int) : Rat) := by
      rw [hmeasure', hmeasure N, heq]
    exact_mod_cast heq'

/-! The values of binary32 -/

/-- A value with a significand of 24 bits at a place not below that of the subnormal numbers: what a finite binary32
pattern can stand for, the exponent unbounded above as in `roundB32`. -/
def IsB32 (x : Rat) : Prop := ∃ m k : Int, |m| ≤ 2 ^ 24 ∧ -149 ≤ k ∧ x = (m : Rat) * 2 ^ k

theorem isB32_neg {x : Rat} (h : IsB32 x) : IsB32 (-x) := by
  obtain ⟨m, k, hm, hk, rfl⟩ := h
  exact ⟨-m, k, by rwa [abs_neg], hk, by push_cast; ring⟩

theorem isB32_zero : IsB32 0 := ⟨0, 0, by norm_num, by norm_num, by norm_num⟩

theorem isB32_zpow {e : Int} (h : -149 ≤ e) : IsB32 (2 ^ e) := ⟨1, e, by norm_num, h, by norm_num⟩

/-- The exponent of a value, of its last place when rounded, and how many of that place it rounds to. -/
def exponentOf (q : Rat) : Int := floorLog2 q.num.natAbs q.den
def placeOf (q : Rat) : Int := lastPlace (exponentOf q)
def placesOf (q : Rat) : Nat := unitsOf q.num.natAbs q.den (placeOf q)

theorem exponentOf_neg (q : Rat) : exponentOf (-q) = exponentOf q := by simp [exponentOf]
theorem placeOf_neg (q : Rat) : placeOf (-q) = placeOf q := by rw [placeOf, exponentOf_neg, placeOf]
theorem placesOf_neg (q : Rat) : placesOf (-q) = placesOf q := by simp [placesOf, placeOf_neg]

theorem exponentOf_spec {q : Rat} (hq : q ≠ 0) : (2 : Rat) ^ exponentOf q ≤ |q| ∧ |q| < 2 ^ (exponentOf q + 1) := by
  rw [abs_eq_natAbs_div]
  exact floorLog2_spec (Int.natAbs_pos.mpr (Rat.num_ne_zero.mpr hq)) q.den_pos

theorem placeOf_cases (q : Rat) :
    (placeOf q = exponentOf q - 23 ∧ -126 ≤ exponentOf q) ∨ (placeOf q = -149 ∧ exponentOf q < -126) := by
  rw [placeOf, lastPlace]
  omega

/-- A rounded value is so many places, with the sign of the exact one. -/
theorem roundB32_eq_places {q : Rat} (hq : 0 < q) : roundB32 q = (placesOf q : Rat) * 2 ^ placeOf q :=
  roundB32_pos hq

theorem abs_roundB32 {q : Rat} (hq : q ≠ 0) : |roundB32 q| = (placesOf q : Rat) * 2 ^ placeOf q := by
  rcases lt_or_gt_of_ne hq with h | h
  · rw [← abs_neg, ← roundB32_neg, roundB32_eq_places (by linarith), placesOf_neg, placeOf_neg]
    exact abs_of_nonneg (by positivity)
  · rw [roundB32_eq_places h]
    exact abs_of_nonneg (by positivity)

theorem zpow_split (e n : Int) : (2 : Rat) ^ e = 2 ^ n * 2 ^ (e - n) := by
  rw [← zpow_add₀ (by norm_num)]
  congr 1
  ring

theorem isB32_roundB32 (q : Rat) : IsB32 (roundB32 q) := by
  have hpos : ∀ p : Rat, 0 < p → IsB32 (roundB32 p) := by
    intro p hp
    have hbound : placesOf p ≤ 2 ^ 24 := by
      refine unitsOf_le p.den_pos ?_
      rw [← rat_eq_natAbs_div hp.le]
      calc p ≤ 2 ^ (exponentOf p + 1) := by
            have := (exponentOf_spec hp.ne').2
            rw [abs_of_pos hp] at this
            exact this.le
        _ ≤ 2 ^ (24 + placeOf p) := zpow_le_zpow_right₀ (by norm_num) (by
            rcases placeOf_cases p with ⟨h, -⟩ | ⟨h, h'⟩ <;> omega)
        _ = ((2 ^ 24 : Nat) : Rat) * 2 ^ placeOf p := by
            rw [zpow_add₀ (by norm_num)]
            norm_num
    refine ⟨placesOf p, placeOf p, ?_, ?_, by rw [roundB32_eq_places hp]; norm_num⟩
    · rw [abs_of_nonneg (by positivity)]
      exact_mod_cast hbound
    · rcases placeOf_cases p with ⟨h, h'⟩ | ⟨h, -⟩ <;> omega
  rcases lt_trichotomy q 0 with h | rfl | h
  · rw [← neg_neg q, roundB32_neg]
    exact isB32_neg (hpos (-q) (by linarith))
  · rw [roundB32_zero]
    exact isB32_zero
  · exact hpos q h

/-- Seen from a value `q`, a binary32 value is a whole number of `q`'s last places, or it is below `q`'s binade. -/
theorem isB32_cases {v : Rat} (hv : IsB32 v) (q : Rat) :
    (∃ N : Int, v = (N : Rat) * 2 ^ placeOf q) ∨ (|v| < 2 ^ exponentOf q ∧ placeOf q = exponentOf q - 23) := by
  obtain ⟨m, k, hm, hk, rfl⟩ := hv
  rcases le_or_gt (placeOf q) k with h | h
  · refine .inl ⟨m * 2 ^ (k - placeOf q).toNat, ?_⟩
    push_cast
    rw [mul_assoc, ← zpow_natCast, ← zpow_add₀ (by norm_num)]
    congr 2
    omega
  · have hplace : placeOf q = exponentOf q - 23 := by
      rcases placeOf_cases q with ⟨h', -⟩ | ⟨h', -⟩ <;> omega
    have habs : |(m : Rat) * 2 ^ k| ≤ 2 ^ exponentOf q := by
      have hm' : |(m : Rat)| ≤ 2 ^ (24 : Int) := by exact_mod_cast hm
      calc |(m : Rat) * 2 ^ k| = |(m : Rat)| * 2 ^ k := by rw [abs_mul, abs_of_pos (by positivity : (0 : Rat) < 2 ^ k)]
        _ ≤ 2 ^ (24 : Int) * 2 ^ k := mul_le_mul_of_nonneg_right hm' (by positivity)
        _ = 2 ^ (24 + k) := (zpow_add₀ (by norm_num) _ _).symm
        _ ≤ 2 ^ exponentOf q := zpow_le_zpow_right₀ (by norm_num) (by omega)
    rcases habs.lt_or_eq with hlt | heq
    · exact .inr ⟨hlt, hplace⟩
    · refine .inl ?_
      have hedge : (2 : Rat) ^ exponentOf q = ((2 ^ 23 : Int) : Rat) * 2 ^ placeOf q := by
        rw [hplace, zpow_split _ 23]
        norm_num
      rcases eq_or_eq_neg_of_abs_eq heq with h' | h'
      · exact ⟨2 ^ 23, h'.trans hedge⟩
      · exact ⟨-2 ^ 23, by rw [h', hedge]; push_cast; ring⟩

/-- No binary32 value is nearer than the rounded one; of two equally near the even one is taken. -/
theorem roundB32_nearest_pos {q v : Rat} (hq : 0 < q) (hv : IsB32 v) :
    |roundB32 q - q| ≤ |v - q| ∧ (v ≠ roundB32 q → |v - q| = |roundB32 q - q| → Even (placesOf q)) := by
  have hnear := unitsOf_nearest (k := placeOf q) q.den_pos (rat_eq_natAbs_div hq.le)
  rw [roundB32_eq_places hq]
  rcases isB32_cases hv q with ⟨N, rfl⟩ | ⟨hbelow, hplace⟩
  · obtain ⟨hle, htie⟩ := hnear N
    exact ⟨hle, fun hne => htie fun h => hne (by rw [h, Int.cast_natCast]; rfl)⟩
  · obtain ⟨hle, -⟩ := hnear (2 ^ 23)
    have hedge : (((2 ^ 23 : Int) : Rat)) * 2 ^ placeOf q = 2 ^ exponentOf q := by
      rw [hplace, zpow_split (exponentOf q) 23]
      norm_num
    have hlow := (exponentOf_spec hq.ne').1
    rw [abs_of_pos hq] at hlow
    have hv' := lt_of_abs_lt hbelow
    have hfar : |(((2 ^ 23 : Int) : Rat)) * 2 ^ placeOf q - q| < |v - q| := by
      rw [hedge, abs_of_nonpos (by linarith), abs_of_neg (by linarith)]
      linarith
    exact ⟨(hle.trans_lt hfar).le, fun _ heq => absurd heq (hle.trans_lt hfar).ne'⟩

theorem roundB32_nearest {q v : Rat} (hq : q ≠ 0) (hv : IsB32 v) :
    |roundB32 q - q| ≤ |v - q| ∧ (v ≠ roundB32 q → |v - q| = |roundB32 q - q| → Even (placesOf q)) := by
  rcases lt_or_gt_of_ne hq with h | h
  · obtain ⟨hle, htie⟩ := roundB32_nearest_pos (q := -q) (by linarith) (isB32_neg hv)
    have hflip (x : Rat) : |(-x) - -q| = |x - q| := by rw [← abs_neg]; congr 1; ring
    rw [roundB32_neg, hflip, hflip, placesOf_neg] at *
    exact ⟨hle, fun hne => htie fun h' => hne (neg_injective h')⟩
  · exact roundB32_nearest_pos h hv

/-- Rounding keeps what is a binary32 value. -/
theorem roundB32_of_isB32 {x : Rat} (hx : IsB32 x) : roundB32 x = x := by
  by_cases h : x = 0
  · rw [h, roundB32_zero]
  · have hle := (roundB32_nearest h hx).1
    rw [sub_self, abs_zero] at hle
    exact sub_eq_zero.mp (abs_eq_zero.mp (le_antisymm hle (abs_nonneg _)))

/-! Patterns -/

theorem isB32_of_pattern {bits : U32} {v : Rat} (h : b32Value bits = .fin v) : IsB32 v := by
  have hfraction : ((bits.extractLsb' 0 23).toNat : Int) < 2 ^ 23 := by exact_mod_cast (bits.extractLsb' 0 23).isLt
  have hsign : ∀ x : Nat, |(if bits.getLsbD 31 then (-1 : Int) else 1) * (x : Int)| = (x : Int) := by
    intro x
    split_ifs <;> simp
  unfold b32Value at h
  simp only at h
  generalize (if bits.getLsbD 31 then (-1 : Int) else 1) = sign at h hsign
  split_ifs at h with hexp hfrac hsub
  · injection h with h
    exact ⟨sign * ((bits.extractLsb' 0 23).toNat : Nat), -149, by rw [hsign]; omega, le_refl _,
      by rw [← h, scaled_eq]⟩
  · injection h with h
    exact ⟨sign * (2 ^ 23 + (bits.extractLsb' 0 23).toNat : Nat), ((bits.extractLsb' 23 8).toNat : Int) - 150,
      by rw [hsign]; push_cast; omega, by omega, by rw [← h, scaled_eq]⟩

/-- The fields of a pattern. -/
theorem pattern_fields (sign : Bool) (exponent : BitVec 8) (fraction : BitVec 23) :
    (BitVec.ofBool sign ++ exponent ++ fraction : BitVec 32).getLsbD 31 = sign
      ∧ (BitVec.ofBool sign ++ exponent ++ fraction : BitVec 32).extractLsb' 23 8 = exponent
      ∧ (BitVec.ofBool sign ++ exponent ++ fraction : BitVec 32).extractLsb' 0 23 = fraction := by
  refine ⟨?_, ?_, ?_⟩
  · rw [BitVec.getLsbD_append, if_neg (by decide), BitVec.getLsbD_append, if_neg (by decide)]
    simp
  · exact (extract_append_high (BitVec.ofBool sign ++ exponent) fraction 23 (by omega)).trans
      ((extract_append_low _ exponent 0 (by omega)).trans (extract_whole exponent 0 rfl))
  · exact (extract_append_low _ fraction 0 (by omega)).trans (extract_whole fraction 0 rfl)

/-- The value of a pattern, field by field. -/
theorem b32Value_pattern (sign : Bool) (exponent : BitVec 8) (fraction : BitVec 23) :
    b32Value (BitVec.ofBool sign ++ exponent ++ fraction) =
      if exponent.toNat = 255 then (if fraction.toNat = 0 then .inf sign else .nan)
      else if exponent.toNat = 0 then .fin (scaled ((if sign then -1 else 1) * fraction.toNat) (-149))
      else .fin (scaled ((if sign then -1 else 1) * (2 ^ 23 + fraction.toNat : Nat)) ((exponent.toNat : Int) - 150)) := by
  obtain ⟨hs, he, hf⟩ := pattern_fields sign exponent fraction
  simp only [b32Value, hs, he, hf]

/-- A value is its sign and its magnitude. -/
theorem sign_mul_abs (r : Rat) : ((if decide (r.num < 0) then (-1 : Int) else 1 : Int) : Rat) * |r| = r := by
  rcases lt_or_ge r 0 with h | h
  · rw [if_pos (decide_eq_true (Rat.num_neg.mpr h)), abs_of_neg h]
    push_cast
    ring
  · rw [if_neg (by simpa using h), abs_of_nonneg h]
    push_cast
    ring

/-- A binary32 value is exactly so many of its own last places. -/
theorem abs_eq_places {r : Rat} (hr : r ≠ 0) (h : IsB32 r) : |r| = (placesOf r : Rat) * 2 ^ placeOf r := by
  have := abs_roundB32 hr
  rwa [roundB32_of_isB32 h] at this

/-- The pattern of a value in the format's range, by kind of exponent. -/
theorem b32Bits_cases {q : Rat} (hr : roundB32 q ≠ 0) (hle : exponentOf (roundB32 q) ≤ 127) :
    (exponentOf (roundB32 q) < -126
      ∧ b32Bits q = BitVec.ofBool (decide ((roundB32 q).num < 0)) ++ (0 : BitVec 8)
          ++ BitVec.ofNat 23 (placesOf (roundB32 q)))
    ∨ (-126 ≤ exponentOf (roundB32 q)
      ∧ b32Bits q = BitVec.ofBool (decide ((roundB32 q).num < 0))
          ++ BitVec.ofNat 8 (exponentOf (roundB32 q) + 127).toNat
          ++ BitVec.ofNat 23 (placesOf (roundB32 q) - 2 ^ 23)) := by
  have hunfold : b32Bits q = if (roundB32 q).num = 0 then 0
      else if exponentOf (roundB32 q) > 127 then
        BitVec.ofBool (decide ((roundB32 q).num < 0)) ++ (0xFF : BitVec 8) ++ (0 : BitVec 23)
      else if exponentOf (roundB32 q) < -126 then
        BitVec.ofBool (decide ((roundB32 q).num < 0)) ++ (0 : BitVec 8) ++ BitVec.ofNat 23 (placesOf (roundB32 q))
      else BitVec.ofBool (decide ((roundB32 q).num < 0))
        ++ BitVec.ofNat 8 (exponentOf (roundB32 q) + 127).toNat
        ++ BitVec.ofNat 23 (placesOf (roundB32 q) - 2 ^ 23) := rfl
  rw [hunfold, if_neg (Rat.num_ne_zero.mpr hr), if_neg (by omega)]
  split_ifs with hsub
  · exact .inl ⟨hsub, rfl⟩
  · exact .inr ⟨by omega, rfl⟩

theorem b32Bits_zero {q : Rat} (hr : roundB32 q = 0) : b32Bits q = 0 := by
  simp [b32Bits, hr]

/-- The number of places of a binary32 value, by kind of exponent. -/
theorem placesOf_range {r : Rat} (hr : r ≠ 0) (h : IsB32 r) :
    (exponentOf r < -126 → placesOf r < 2 ^ 23)
      ∧ (-126 ≤ exponentOf r → 2 ^ 23 ≤ placesOf r ∧ placesOf r < 2 ^ 24) := by
  obtain ⟨hlo, hhi⟩ := exponentOf_spec hr
  rw [abs_eq_places hr h] at hlo hhi
  have hpos : (0 : Rat) < 2 ^ placeOf r := by positivity
  have hupper (n : Nat) (hn : exponentOf r + 1 ≤ n + placeOf r) : placesOf r < 2 ^ n := by
    have hlt : (placesOf r : Rat) * 2 ^ placeOf r < 2 ^ (n : Int) * 2 ^ placeOf r := by
      rw [← zpow_add₀ (by norm_num)]
      exact hhi.trans_le (zpow_le_zpow_right₀ (by norm_num) hn)
    have := lt_of_mul_lt_mul_right hlt hpos.le
    exact_mod_cast this
  rcases placeOf_cases r with ⟨hp, he⟩ | ⟨hp, he⟩
  · refine ⟨fun h' => by omega, fun _ => ⟨?_, hupper 24 (by push_cast; omega)⟩⟩
    rw [zpow_split (exponentOf r) 23, ← hp] at hlo
    have := le_of_mul_le_mul_right hlo hpos
    exact_mod_cast this
  · exact ⟨fun _ => hupper 23 (by push_cast; omega), fun h' => by omega⟩

theorem exponentOf_roundB32_le {q : Rat} (hq : |q| ≤ 2 ^ 127) (hr : roundB32 q ≠ 0) :
    exponentOf (roundB32 q) ≤ 127 := by
  have htop : roundB32 (2 ^ 127) = 2 ^ 127 := roundB32_of_isB32 (isB32_zpow (e := 127) (by norm_num))
  obtain ⟨hlo, hhi⟩ := abs_le.mp hq
  have h1 := roundB32_mono hhi
  have h2 := roundB32_mono hlo
  rw [roundB32_neg, htop] at h2
  rw [htop] at h1
  have habs : (2 : Rat) ^ exponentOf (roundB32 q) ≤ 2 ^ (127 : Int) :=
    (exponentOf_spec hr).1.trans (by exact_mod_cast abs_le.mpr ⟨h2, h1⟩)
  exact (zpow_le_zpow_iff_right₀ (by norm_num)).mp habs

/-- The pattern of a value within the format's range has the rounded value. -/
theorem b32Value_b32Bits {q : Rat} (hq : |q| ≤ 2 ^ 127) : b32Value (b32Bits q) = .fin (roundB32 q) := by
  by_cases hr : roundB32 q = 0
  · rw [b32Bits_zero hr, hr]
    decide +kernel
  · have hb := isB32_roundB32 q
    have hle := exponentOf_roundB32_le hq hr
    obtain ⟨hsmall, hlarge⟩ := placesOf_range hr hb
    have hvalue := sign_mul_abs (roundB32 q)
    rw [abs_eq_places hr hb] at hvalue
    rcases b32Bits_cases hr hle with ⟨he, hbits⟩ | ⟨he, hbits⟩
    · have hplace : placeOf (roundB32 q) = -149 := by
        rcases placeOf_cases (roundB32 q) with ⟨h, h'⟩ | ⟨h, -⟩ <;> omega
      have hfrac : (BitVec.ofNat 23 (placesOf (roundB32 q))).toNat = placesOf (roundB32 q) := by
        rw [BitVec.toNat_ofNat, Nat.mod_eq_of_lt (hsmall he)]
      rw [hbits, b32Value_pattern, if_neg (by decide), if_pos (by decide), hfrac, scaled_eq]
      rw [hplace, ← mul_assoc] at hvalue
      exact congrArg Num.fin ((congrArg (· * _) (by push_cast; rfl)).trans hvalue)
    · have hplace : placeOf (roundB32 q) = exponentOf (roundB32 q) - 23 := by
        rcases placeOf_cases (roundB32 q) with ⟨h, -⟩ | ⟨h, h'⟩ <;> omega
      obtain ⟨hlo, hhi⟩ := hlarge he
      have hfrac : (BitVec.ofNat 23 (placesOf (roundB32 q) - 2 ^ 23)).toNat = placesOf (roundB32 q) - 2 ^ 23 := by
        rw [BitVec.toNat_ofNat, Nat.mod_eq_of_lt (by omega)]
      have hexp : (BitVec.ofNat 8 (exponentOf (roundB32 q) + 127).toNat).toNat
          = (exponentOf (roundB32 q) + 127).toNat := by
        rw [BitVec.toNat_ofNat, Nat.mod_eq_of_lt (by omega)]
      rw [hbits, b32Value_pattern, hexp, hfrac, if_neg (by omega), if_neg (by omega), scaled_eq,
        show 2 ^ 23 + (placesOf (roundB32 q) - 2 ^ 23) = placesOf (roundB32 q) by omega,
        show ((exponentOf (roundB32 q) + 127).toNat : Int) - 150 = placeOf (roundB32 q) by omega]
      rw [← mul_assoc] at hvalue
      exact congrArg Num.fin ((congrArg (· * _) (by push_cast; rfl)).trans hvalue)

/-- Evenness survives the rounding up to the next binade: the result is then a power of two. -/
theorem even_placesOf_roundB32 {q : Rat} (hq : q ≠ 0) (hr : roundB32 q ≠ 0) (h : Even (placesOf q)) :
    Even (placesOf (roundB32 q)) := by
  have hb := isB32_roundB32 q
  have hplaces : (placesOf (roundB32 q) : Rat) * 2 ^ placeOf (roundB32 q) = (placesOf q : Rat) * 2 ^ placeOf q := by
    rw [← abs_eq_places hr hb, abs_roundB32 hq]
  have hpos : (0 : Rat) < 2 ^ placeOf (roundB32 q) := by positivity
  rcases le_or_gt (placeOf (roundB32 q)) (placeOf q) with hle | hgt
  · have hscale : placesOf (roundB32 q) = placesOf q * 2 ^ (placeOf q - placeOf (roundB32 q)).toNat := by
      have hsplit : (2 : Rat) ^ placeOf q
          = ((2 ^ (placeOf q - placeOf (roundB32 q)).toNat : Nat) : Rat) * 2 ^ placeOf (roundB32 q) := by
        push_cast
        rw [← zpow_natCast, ← zpow_add₀ (by norm_num)]
        congr 1
        omega
      rw [hsplit, ← mul_assoc] at hplaces
      exact_mod_cast mul_right_cancel₀ hpos.ne' hplaces
    rw [hscale]
    exact h.mul_right _
  · have hplace : placeOf (roundB32 q) = exponentOf (roundB32 q) - 23 ∧ exponentOf q + 1 ≤ exponentOf (roundB32 q) := by
      rcases placeOf_cases (roundB32 q) with ⟨h1, h1'⟩ | ⟨h1, h1'⟩ <;>
        rcases placeOf_cases q with ⟨h2, h2'⟩ | ⟨h2, h2'⟩ <;> constructor <;> omega
    obtain ⟨hp, he⟩ := hplace
    have hedge : roundB32 (2 ^ exponentOf (roundB32 q)) = 2 ^ exponentOf (roundB32 q) :=
      roundB32_of_isB32 (isB32_zpow (by rcases placeOf_cases q with ⟨h2, h2'⟩ | ⟨h2, h2'⟩ <;> omega))
    have hqabs : |q| ≤ 2 ^ exponentOf (roundB32 q) :=
      (exponentOf_spec hq).2.le.trans (zpow_le_zpow_right₀ (by norm_num) he)
    obtain ⟨hlo, hhi⟩ := abs_le.mp hqabs
    have h1 := roundB32_mono hhi
    have h2 := roundB32_mono hlo
    rw [roundB32_neg, hedge] at h2
    rw [hedge] at h1
    have habs : |roundB32 q| = 2 ^ exponentOf (roundB32 q) :=
      le_antisymm (abs_le.mpr ⟨h2, h1⟩) (exponentOf_spec hr).1
    rw [abs_eq_places hr hb, zpow_split (exponentOf (roundB32 q)) 23, ← hp] at habs
    have hval : placesOf (roundB32 q) = 2 ^ 23 := by exact_mod_cast mul_right_cancel₀ hpos.ne' habs
    rw [hval]
    exact ⟨2 ^ 22, by norm_num⟩

/-- A pattern with an even number of places has an even last fraction bit. -/
theorem b32Bits_lastBit {q : Rat} (hq : |q| ≤ 2 ^ 127) (h : roundB32 q ≠ 0 → Even (placesOf (roundB32 q))) :
    (b32Bits q).getLsbD 0 = false := by
  by_cases hr : roundB32 q = 0
  · rw [b32Bits_zero hr]
    rfl
  · have heven := h hr
    have hlast (sign : Bool) (exponent : BitVec 8) {n : Nat} (hn : Even n) :
        (BitVec.ofBool sign ++ exponent ++ BitVec.ofNat 23 n : BitVec 32).getLsbD 0 = false := by
      rw [BitVec.getLsbD_append, if_pos (by decide), BitVec.getLsbD_ofNat]
      simpa using Nat.even_iff.mp hn
    rcases b32Bits_cases hr (exponentOf_roundB32_le hq hr) with ⟨-, hbits⟩ | ⟨he, hbits⟩
    · rw [hbits]
      exact hlast _ _ heven
    · obtain ⟨hlo, -⟩ := (placesOf_range hr (isB32_roundB32 q)).2 he
      rw [hbits]
      exact hlast _ _ ((Nat.even_sub hlo).mpr (iff_of_true heven ⟨2 ^ 22, by norm_num⟩))

/-- Settles O27: the pattern of the rounded value, the nearest value, and the even place from the middle. -/
theorem binary32RoundingIsNearest : Obligations.Binary32RoundingIsNearest := by
  intro q hq
  refine ⟨b32Value_b32Bits hq, fun v bits hv => ?_⟩
  by_cases h0 : q = 0
  · subst h0
    rw [roundB32_zero, sub_zero, sub_zero, abs_zero]
    exact ⟨abs_nonneg v, fun hne heq => absurd (abs_eq_zero.mp heq) hne⟩
  · obtain ⟨hle, htie⟩ := roundB32_nearest h0 (isB32_of_pattern hv)
    exact ⟨hle, fun hne heq => b32Bits_lastBit hq fun hr => even_placesOf_roundB32 h0 hr (htie hne heq)⟩

end Sys2Proof.Machine

/-! PROOFS. The angle decode in binary32, and the response words: the statements O22, O28 and O29 of
41_angle_decode.md R153 to R165 and 30_encoding.md R96 to R98. -/

namespace Sys2Proof.Machine

open Sys2Proof

/-! The correction by a turn is exact in binary32 -/

/-- Above a half turn a binary32 value has no place below `2 ^ (-16)`. -/
theorem isB32_coarse {d : Rat} (h : IsB32 d) (h0 : 180 < d) : ∃ N : Int, d = (N : Rat) * 2 ^ (-16 : Int) := by
  obtain ⟨m, k, hm, -, rfl⟩ := h
  have hk : -16 ≤ k := by
    by_contra hk
    have hm' : (m : Rat) ≤ 2 ^ 24 := by exact_mod_cast (abs_le.mp hm).2
    have hfine : (2 : Rat) ^ k ≤ 2 ^ (-17 : Int) := zpow_le_zpow_right₀ (by norm_num) (by omega)
    have hsmall : (m : Rat) * 2 ^ k ≤ 2 ^ 24 * 2 ^ (-17 : Int) :=
      mul_le_mul hm' hfine (by positivity) (by positivity)
    norm_num at hsmall
    linarith
  refine ⟨m * 2 ^ (k + 16).toNat, ?_⟩
  push_cast
  rw [mul_assoc, ← zpow_natCast, ← zpow_add₀ (by norm_num)]
  congr 2
  omega

theorem isB32_sub_turn {d : Rat} (h : IsB32 d) (h0 : 180 < d) (h1 : d ≤ 360) : IsB32 (d - 360) := by
  obtain ⟨N, rfl⟩ := isB32_coarse h h0
  refine ⟨N - 360 * 2 ^ 16, -16, ?_, by norm_num, by push_cast; norm_num; ring⟩
  norm_num at h0 h1
  have hlo : (180 * 2 ^ 16 : Rat) < N := by linarith
  have hhi : (N : Rat) ≤ 360 * 2 ^ 16 := by linarith
  have hlo' : 180 * 2 ^ 16 < N := by exact_mod_cast hlo
  have hhi' : N ≤ 360 * 2 ^ 16 := by exact_mod_cast hhi
  rw [abs_le]
  omega

/-- A difference of two angles, corrected by at most one turn (41_angle_decode.md R158, R165). -/
def correctedDifference (d : Rat) : Rat := if 180 < d then d - 360 else if d < -180 then d + 360 else d

theorem isB32_correctedDifference {d : Rat} (h : IsB32 d) (hlo : -360 ≤ d) (hhi : d ≤ 360) :
    IsB32 (correctedDifference d) := by
  unfold correctedDifference
  split_ifs with habove hbelow
  · exact isB32_sub_turn h habove hhi
  · have hneg := isB32_neg (isB32_sub_turn (isB32_neg h) (by linarith) (by linarith))
    rwa [show -(-d - 360) = d + 360 by ring] at hneg
  · exact h

theorem wrap180_binary32 {d : Rat} (h : IsB32 d) (hlo : -360 ≤ d) (hhi : d ≤ 360) :
    wrap180 .binary32 d = some (correctedDifference d) := by
  have hexact := roundB32_of_isB32 (isB32_correctedDifference h hlo hhi)
  rcases lt_or_ge 180 d with habove | hnotAbove
  · have hc : correctedDifference d = d - 360 := if_pos habove
    rw [hc] at hexact
    have hround : numRound .binary32 (d - 360) = d - 360 := hexact
    rw [wrap180, foldTurn_down .binary32 (by simpa using habove), hround, hc]
    all_goals simp only [hround, decide_eq_false_iff_not]
    all_goals linarith
  · rcases lt_or_ge d (-180) with hbelow | hnotBelow
    · have hc : correctedDifference d = d + 360 := by
        rw [correctedDifference, if_neg (by linarith), if_pos hbelow]
      rw [hc] at hexact
      have hround : numRound .binary32 (d + 360) = d + 360 := hexact
      rw [wrap180, foldTurn_up .binary32 (by simpa using hnotAbove) (by simpa using hbelow), hround, hc]
      simp only [hround, decide_eq_false_iff_not]
      linarith
    · rw [wrap180_kept .binary32 hnotBelow hnotAbove, correctedDifference, if_neg (by linarith),
        if_neg (by linarith)]

/-- The rounded difference of two angles of a turn lies within a turn. -/
theorem roundB32_difference {a z : Rat} (ha0 : 0 ≤ a) (ha1 : a < 360) (hz0 : 0 ≤ z) (hz1 : z < 360) :
    -360 ≤ roundB32 (a - z) ∧ roundB32 (a - z) ≤ 360 := by
  obtain ⟨-, -, -, -, h360, hneg360⟩ := numRound_const .binary32
  exact ⟨hneg360 ▸ numRound_mono .binary32 (by linarith), h360 ▸ numRound_mono .binary32 (by linarith)⟩

theorem relativeAngle_binary32 {cfg : Config} {a z : Rat} (hnum : cfg.num = .binary32) (ha0 : 0 ≤ a)
    (ha1 : a < 360) (hz0 : 0 ≤ z) (hz1 : z < 360) :
    relativeAngle cfg a z = some (correctedDifference (roundB32 (a - z))) := by
  obtain ⟨hlo, hhi⟩ := roundB32_difference ha0 ha1 hz0 hz1
  rw [relativeAngle, hnum]
  exact wrap180_binary32 (isB32_roundB32 _) hlo hhi

theorem absoluteAngle_eq (cfg : Config) {period pulse : U32} (h : pulse.toNat < period.toNat) :
    absoluteAngle cfg period pulse = some (if phaseAngle cfg (dutyOf cfg period pulse) = 360 then 0
      else phaseAngle cfg (dutyOf cfg period pulse)) := by
  obtain ⟨hd0, hd1⟩ := dutyOf_range cfg h
  obtain ⟨hp0, hp1⟩ := phaseAngle_range cfg hd0 hd1
  exact norm360_small cfg.num hp0 hp1

/-- Settles O22: each operation of the model rounds once, and the correction by a turn is exact. -/
theorem binary32AngleRoundsEachOperation : Obligations.Binary32AngleRoundsEachOperation := by
  intro s hnum hn h0 h1
  have habs := absoluteAngle_eq s.cfg h1
  refine ⟨dutyOf s.cfg s.periodTicks s.pulseTicks, phaseAngle s.cfg (dutyOf s.cfg s.periodTicks s.pulseTicks), _,
    ?_, ?_, rfl, fun hz => exec_getAngle_zero hn hz h0 h1 habs, fun hz hz0 hz1 => ⟨_, rfl, ?_⟩⟩
  · simp only [dutyOf, ofU32, hnum, numRound]
  · cases hpol : s.cfg.polarity <;> simp only [phaseAngle, hnum, hpol, numRound]
  · obtain ⟨a, ha, ha0, ha1⟩ := absoluteAngle_range s.cfg h1
    cases ha.symm.trans habs
    exact exec_getAngle_relative hn hz h0 h1 habs (relativeAngle_binary32 hnum ha0 ha1 hz0 hz1)

/-! The response words -/

/-- The presence bit of a response word, and the fields above it. -/
theorem presence_bit {n : Nat} (fields : BitVec n) (present : BitVec 1) :
    (fields ++ present).getLsbD 0 = present.getLsbD 0 := by
  rw [BitVec.getLsbD_append, if_pos (by decide)]

theorem fields_above_presence {n k : Nat} (fields : BitVec n) (present : BitVec 1) (lo : Nat) :
    (fields ++ present).extractLsb' (1 + lo) k = fields.extractLsb' lo k := by
  rw [extract_append_high _ _ _ (by omega), Nat.add_sub_cancel_left]

/-- The response word of a valid angle carries its pattern at bits 32:1. -/
theorem angleWord_pattern (q : Rat) :
    (b32Bits q ++ 1#1 : BitVec 33).getLsbD 0 = true ∧ (b32Bits q ++ 1#1 : BitVec 33).extractLsb' 1 32 = b32Bits q :=
  ⟨presence_bit (b32Bits q) 1#1, (fields_above_presence (b32Bits q) 1#1 0).trans (extract_whole _ 0 rfl)⟩

/-- The response word of bit timing. -/
theorem timingWord_fields (p : BitTiming) :
    (p.seg2 ++ p.seg1 ++ p.prescaler ++ 1#1 : BitVec 49).getLsbD 0 = true
      ∧ (p.seg2 ++ p.seg1 ++ p.prescaler ++ 1#1 : BitVec 49).extractLsb' 1 32 = p.prescaler
      ∧ (p.seg2 ++ p.seg1 ++ p.prescaler ++ 1#1 : BitVec 49).extractLsb' 33 8 = p.seg1
      ∧ (p.seg2 ++ p.seg1 ++ p.prescaler ++ 1#1 : BitVec 49).extractLsb' 41 8 = p.seg2 := by
  have hword (lo n : Nat) : (p.seg2 ++ p.seg1 ++ p.prescaler ++ 1#1 : BitVec 49).extractLsb' (1 + lo) n
      = (p.seg2 ++ p.seg1 ++ p.prescaler).extractLsb' lo n :=
    fields_above_presence (p.seg2 ++ p.seg1 ++ p.prescaler) 1#1 lo
  refine ⟨presence_bit (p.seg2 ++ p.seg1 ++ p.prescaler) 1#1, (hword 0 32).trans ?_, (hword 32 8).trans ?_,
    (hword 40 8).trans ?_⟩
  all_goals simp (disch := omega) only [extract_append_high, extract_append_low, extract_whole]

/-- One byte of a packed payload. -/
theorem packPayload_byte (p : Payload) (i : Fin 8) : (packPayload p).extractLsb' (8 * i.val) 8 = p[i] := by
  have hbyte : (unpackPayload (packPayload p))[i] = (packPayload p).extractLsb' (8 * i.val) 8 := by
    fin_cases i <;> rfl
  rw [← hbyte, unpack_pack]

/-- The response word of a frame. -/
def frameWord (f : Frame) : BitVec 103 :=
  packPayload f.data ++ f.len ++ BitVec.ofBool f.rtr ++ BitVec.ofBool f.ext ++ f.id ++ 1#1

theorem frameWord_extract (f : Frame) (lo n : Nat) : (frameWord f).extractLsb' (1 + lo) n
    = (packPayload f.data ++ f.len ++ BitVec.ofBool f.rtr ++ BitVec.ofBool f.ext ++ f.id).extractLsb' lo n :=
  fields_above_presence (packPayload f.data ++ f.len ++ BitVec.ofBool f.rtr ++ BitVec.ofBool f.ext ++ f.id) 1#1 lo

theorem frameWord_fields (f : Frame) :
    (frameWord f).getLsbD 0 = true ∧ (frameWord f).extractLsb' 1 32 = f.id ∧ (frameWord f).getLsbD 33 = f.ext
      ∧ (frameWord f).getLsbD 34 = f.rtr ∧ (frameWord f).extractLsb' 35 4 = f.len
      ∧ ∀ i : Fin 8, (frameWord f).extractLsb' (39 + 8 * i.val) 8 = f.data[i] := by
  have hbit (i : Nat) : (frameWord f).getLsbD (1 + i) = ((frameWord f).extractLsb' (1 + i) 1).getLsbD 0 := by
    simp
  refine ⟨presence_bit (packPayload f.data ++ f.len ++ BitVec.ofBool f.rtr ++ BitVec.ofBool f.ext ++ f.id) 1#1,
    (frameWord_extract f 0 32).trans ?id, (hbit 32).trans ?ext, (hbit 33).trans ?rtr,
    (frameWord_extract f 34 4).trans ?len, fun i => ?byte⟩
  case id | len =>
    simp (disch := omega) only [extract_append_high, extract_append_low, extract_whole]
  case ext | rtr =>
    rw [frameWord_extract]
    simp (disch := omega) only [extract_append_high, extract_append_low, extract_whole]
    simp
  case byte =>
    rw [show 39 + 8 * i.val = 1 + (38 + 8 * i.val) by omega, frameWord_extract, ← packPayload_byte f.data i]
    simp (disch := omega) only [extract_append_high]
    congr 1
    omega

/-- Settles O28: the pattern has the rounded value, and a corrected difference is a binary32 value. -/
theorem binary32PatternHasTheRoundedValue : Obligations.Binary32PatternHasTheRoundedValue := by
  refine ⟨fun q fill hq => ?_, fun s t q hinv hnum h hresp => ?_⟩
  · obtain ⟨hvalid, hbits⟩ := angleWord_pattern q
    exact ⟨⟨_, rfl, hvalid, by rw [hbits, b32Value_b32Bits hq]⟩, b32Value_b32Bits hq⟩
  · rcases exec_getAngle_cases h with rfl | ⟨-, -, -, a, -, rfl⟩ | ⟨hz, -, hlt, a, rel, ha, hrel, rfl⟩
    · cases hresp
    · cases hresp
    · injection hresp with hresp
      injection hresp with hresp
      subst hresp
      obtain ⟨a', ha', ha0, ha1⟩ := absoluteAngle_range s.cfg hlt
      cases ha.symm.trans ha'
      have hz0 := hinv.zero.low hz
      have hz1 := hinv.zero.high hz
      cases hrel.symm.trans (relativeAngle_binary32 hnum ha0 ha1 hz0 hz1)
      obtain ⟨hlo, hhi⟩ := roundB32_difference ha0 ha1 hz0 hz1
      exact roundB32_of_isB32 (isB32_correctedDifference (isB32_roundB32 _) hlo hhi)

/-- Settles O29. -/
theorem responseWordsHaveTheirLayout : Obligations.ResponseWordsHaveTheirLayout := by
  intro dom fill
  refine ⟨rfl, rfl, fun q => ⟨rfl, _, rfl, angleWord_pattern q⟩, rfl, ⟨_, rfl, presence_bit (BitVec.ofNat 32 fill) 0#1⟩,
    fun p => ⟨_, rfl, timingWord_fields p⟩, ⟨_, rfl, presence_bit (BitVec.ofNat 48 fill) 0#1⟩,
    fun f => ⟨frameWord f, rfl, frameWord_fields f⟩, ⟨_, rfl, presence_bit (BitVec.ofNat 102 fill) 0#1⟩,
    fun observed timedOut => ⟨_, rfl, ?_, ?_⟩, fun _ => rfl, rfl⟩
  · exact (extract_append_low (BitVec.ofBool timedOut) observed 0 (by omega)).trans (extract_whole observed 0 rfl)
  · rw [BitVec.getLsbD_append, if_neg (by decide)]
    simp

end Sys2Proof.Machine

/-! PROOFS. Bit timing: the winner of the search, and the statements O30 to O33 of 42_can_bit_timing.md R180 to
R192. -/

namespace Sys2Proof.Machine

open Sys2Proof

/-! The winner -/

theorem winner_eq_none_iff {cfg : Config} {clockHz bitrateBps : U32} :
    winner cfg clockHz bitrateBps = none
      ↔ ∀ c ∈ searchSpace cfg, ¬ accepted cfg clockHz.toNat bitrateBps.toNat c = true := by
  rw [winner, bestOf_none, List.filter_eq_nil_iff]

theorem winner_accepted {cfg : Config} {clockHz bitrateBps : U32} {c : Candidate}
    (h : winner cfg clockHz bitrateBps = some c) :
    c ∈ searchSpace cfg ∧ accepted cfg clockHz.toNat bitrateBps.toNat c = true :=
  List.mem_filter.mp (bestOf_mem h)

theorem winner_nearest {cfg : Config} {clockHz bitrateBps : U32} {c d : Candidate} (hmin : 1 ≤ cfg.tqMin)
    (h : winner cfg clockHz bitrateBps = some c) (hd : d ∈ searchSpace cfg)
    (ha : accepted cfg clockHz.toNat bitrateBps.toNat d = true) :
    closer cfg d c = false ∧ (closer cfg c d = false → d.tq ≤ c.tq) := by
  refine bestOf_least (fun e he => ?_) h d (List.mem_filter.mpr ⟨hd, ha⟩)
  obtain ⟨hlow, -⟩ := mem_searchSpace.mp (List.mem_filter.mp he).1
  omega

/-! The operation -/

theorem exec_btSynth (clockHz bitrateBps : U32) (s : State) :
    exec (.btSynth clockHz bitrateBps) s = execBtSynth clockHz bitrateBps s := rfl

theorem exec_btSynth_found {s : State} {clockHz bitrateBps : U32} {c : Candidate}
    (h : winner s.cfg clockHz bitrateBps = some c) :
    exec (.btSynth clockHz bitrateBps) s = .next { s with
      btFound := true
      btPrescaler := (paramsOf clockHz bitrateBps c).prescaler
      btSeg1 := (paramsOf clockHz bitrateBps c).seg1
      btSeg2 := (paramsOf clockHz bitrateBps c).seg2
      resp := .timing (some (paramsOf clockHz bitrateBps c)) } := by
  rw [exec_btSynth, execBtSynth, synthesize, h]
  rfl

theorem exec_btSynth_none {s : State} {clockHz bitrateBps : U32} (h : winner s.cfg clockHz bitrateBps = none) :
    exec (.btSynth clockHz bitrateBps) s = .next { s with btFound := false, resp := .timing none } := by
  rw [exec_btSynth, execBtSynth, synthesize, h]
  rfl

/-- Settles O31: the search finds a candidate exactly when one is accepted. -/
theorem bitTimingFindsAResultExactlyWhenOneExists : Obligations.BitTimingFindsAResultExactlyWhenOneExists := by
  refine fun s clockHz bitrateBps => ⟨fun ⟨tq, seg2, h1, h2, h3, h4, hacc⟩ => ?_, fun hno => ?_⟩
  · cases hw : winner s.cfg clockHz bitrateBps with
    | none =>
      have hmem : ⟨tq, seg2⟩ ∈ searchSpace s.cfg := mem_searchSpace.mpr ⟨h1, h2, h3, h4⟩
      exact absurd (accepted_iff.mpr (by exact hacc)) (winner_eq_none_iff.mp hw _ hmem)
    | some c => exact ⟨_, exec_btSynth_found hw⟩
  · refine exec_btSynth_none (winner_eq_none_iff.mpr fun c hc ha => hno ?_)
    obtain ⟨h1, h2, h3, h4⟩ := mem_searchSpace.mp hc
    exact ⟨c.tq, c.seg2, h1, h2, h3, h4, accepted_iff.mp ha⟩

/-- The clock of an accepted candidate is its prescaler times the rate of its time quanta. -/
theorem clock_of_accepted {cfg : Config} {clockHz bitrateBps : Nat} {c : Candidate}
    (h : accepted cfg clockHz bitrateBps c = true) :
    prescalerOf clockHz bitrateBps c * (bitrateBps * c.tq) = clockHz := by
  obtain ⟨-, hdvd, -⟩ := accepted_iff.mp h
  exact Nat.div_mul_cancel (Nat.dvd_of_mod_eq_zero hdvd)

/-- Settles O33: the ratio of an accepted candidate is `prescaler * TQ`, within the bounds of both. -/
theorem noBitTimingOutsideTheRatioBounds : Obligations.NoBitTimingOutsideTheRatioBounds := by
  intro s clockHz bitrateBps hmin hout
  refine exec_btSynth_none (winner_eq_none_iff.mpr fun c hc ha => ?_)
  obtain ⟨htqMin, htqMax, -, -⟩ := mem_searchSpace.mp hc
  obtain ⟨hne, -, hpMin, hpMax, -, -⟩ := accepted_iff.mp ha
  have hclock := clock_of_accepted ha
  change s.cfg.prescMin ≤ prescalerOf clockHz.toNat bitrateBps.toNat c at hpMin
  change prescalerOf clockHz.toNat bitrateBps.toNat c ≤ s.cfg.prescMax at hpMax
  generalize prescalerOf clockHz.toNat bitrateBps.toNat c = p at hclock hpMin hpMax
  rcases hout with h | h | h | h | h
  · have hprod : p * (bitrateBps.toNat * c.tq) ≠ 0 := Nat.mul_ne_zero (by omega) hne
    omega
  · exact hne (by rw [h, zero_mul])
  · exact h (Nat.mod_eq_zero_of_dvd ⟨p * c.tq, by rw [← hclock]; ring⟩)
  · have hlow : s.cfg.prescMin * s.cfg.tqMin * bitrateBps.toNat ≤ p * c.tq * bitrateBps.toNat :=
      Nat.mul_le_mul_right _ (Nat.mul_le_mul hpMin htqMin)
    have : p * c.tq * bitrateBps.toNat = clockHz.toNat := by rw [← hclock]; ring
    omega
  · have hhigh : p * c.tq * bitrateBps.toNat ≤ s.cfg.prescMax * s.cfg.tqMax * bitrateBps.toNat :=
      Nat.mul_le_mul_right _ (Nat.mul_le_mul hpMax htqMax)
    have : p * c.tq * bitrateBps.toNat = clockHz.toNat := by rw [← hclock]; ring
    omega

/-! The distance to the target -/

/-- The distance of a candidate's sample point from the target (R184). -/
def sampleDistance (cfg : Config) (c : Candidate) : Rat :=
  |((c.tq : Rat) - c.seg2) / c.tq - (cfg.targetNum : Rat) / cfg.targetDen|

theorem sampleDistance_eq {cfg : Config} {c : Candidate} (hden : 0 < cfg.targetDen) (htq : 0 < c.tq) :
    sampleDistance cfg c = (offTarget cfg c : Rat) / c.tq / cfg.targetDen := by
  have hden' : (0 : Rat) < cfg.targetDen := by exact_mod_cast hden
  have htq' : (0 : Rat) < c.tq := by exact_mod_cast htq
  have hoff : (offTarget cfg c : Rat)
      = |(cfg.targetDen : Rat) * ((c.tq : Rat) - c.seg2) - cfg.targetNum * c.tq| := by
    rw [offTarget, Nat.cast_natAbs]
    push_cast
    rfl
  have hsplit : ((c.tq : Rat) - c.seg2) / c.tq - (cfg.targetNum : Rat) / cfg.targetDen
      = ((cfg.targetDen : Rat) * ((c.tq : Rat) - c.seg2) - cfg.targetNum * c.tq) / c.tq / cfg.targetDen := by
    field_simp
  rw [sampleDistance, hsplit, abs_div, abs_div, ← hoff, abs_of_pos hden', abs_of_pos htq']

theorem closer_iff {cfg : Config} {c d : Candidate} (hden : 0 < cfg.targetDen) (hc : 0 < c.tq) (hd : 0 < d.tq) :
    closer cfg c d = true ↔ sampleDistance cfg c < sampleDistance cfg d := by
  have hden' : (0 : Rat) < cfg.targetDen := by exact_mod_cast hden
  have hc' : (0 : Rat) < c.tq := by exact_mod_cast hc
  have hd' : (0 : Rat) < d.tq := by exact_mod_cast hd
  rw [sampleDistance_eq hden hc, sampleDistance_eq hden hd, div_lt_div_iff_of_pos_right hden', div_lt_div_iff₀ hc' hd',
    closer, decide_eq_true_eq]
  exact_mod_cast Iff.rfl

theorem closer_eq_false_iff {cfg : Config} {c d : Candidate} (hden : 0 < cfg.targetDen) (hc : 0 < c.tq)
    (hd : 0 < d.tq) : closer cfg c d = false ↔ sampleDistance cfg d ≤ sampleDistance cfg c := by
  rw [← not_lt, ← closer_iff hden hc hd, Bool.not_eq_true]

/-- The widths of the parameters hold the values of an accepted candidate. -/
theorem paramsOf_toNat {cfg : Config} {clockHz bitrateBps : U32} {c : Candidate} (hseg2 : c.seg2 ≤ 255)
    (hseg1 : cfg.seg1Max ≤ 255) (ha : accepted cfg clockHz.toNat bitrateBps.toNat c = true) :
    (paramsOf clockHz bitrateBps c).prescaler.toNat = prescalerOf clockHz.toNat bitrateBps.toNat c
      ∧ (paramsOf clockHz bitrateBps c).seg1.toNat = c.tq - 1 - c.seg2
      ∧ (paramsOf clockHz bitrateBps c).seg2.toNat = c.seg2 := by
  obtain ⟨-, -, -, -, hlow, hhigh⟩ := accepted_iff.mp ha
  have hclock : prescalerOf clockHz.toNat bitrateBps.toNat c < 2 ^ 32 :=
    (Nat.div_le_self _ _).trans_lt clockHz.isLt
  have hseg1Of : (seg1Of c).toNat = c.tq - 1 - c.seg2 := by
    rw [seg1Of]
    omega
  refine ⟨?_, ?_, ?_⟩
  · rw [paramsOf, BitVec.toNat_ofNat, Nat.mod_eq_of_lt hclock]
  · rw [paramsOf, BitVec.toNat_ofNat, hseg1Of, Nat.mod_eq_of_lt (by omega)]
  · rw [paramsOf, BitVec.toNat_ofNat, Nat.mod_eq_of_lt (by omega)]

/-- Settles O30: the winner is accepted, its parameters fit their widths, and no accepted candidate is preferred. -/
theorem bitTimingResultIsExactAndNearest : Obligations.BitTimingResultIsExactAndNearest := by
  intro s t clockHz bitrateBps p hwf h hresp
  obtain ⟨-, htqMin, ⟨hseg2Max, hseg1Max⟩, -, hden, -⟩ := config_wf hwf
  cases hw : winner s.cfg clockHz bitrateBps with
  | none =>
    cases (exec_btSynth_none hw).symm.trans h
    cases hresp
  | some c =>
    cases (exec_btSynth_found hw).symm.trans h
    injection hresp with hresp
    injection hresp with hresp
    subst hresp
    obtain ⟨hmem, ha⟩ := winner_accepted hw
    obtain ⟨h1, h2, h3, h4⟩ := mem_searchSpace.mp hmem
    obtain ⟨-, -, hpMin, hpMax, hlow, hhigh⟩ := accepted_iff.mp ha
    obtain ⟨hp, hs1, hs2⟩ := paramsOf_toNat (by omega) hseg1Max ha
    rw [hp, hs1, hs2]
    refine ⟨c.tq, by omega, ?_, hpMin, hpMax, by omega, by omega, h3, h4, h1, h2, rfl, rfl, rfl, rfl, ?_⟩
    · rw [mul_assoc]
      exact clock_of_accepted ha
    · intro tq' seg2' g1 g2 g3 g4 g5 g6 g7 g8 g9 g10
      have hc : 0 < c.tq := by omega
      have hd : 0 < tq' := by omega
      obtain ⟨hnear, htie⟩ := winner_nearest htqMin hw (d := ⟨tq', seg2'⟩)
        (mem_searchSpace.mpr ⟨g1, g2, g3, g4⟩) (accepted_iff.mpr ⟨g5, g6, g7, g8, g9, g10⟩)
      have hle := (closer_eq_false_iff (c := ⟨tq', seg2'⟩) hden hd hc).mp hnear
      exact ⟨hle, fun heq => htie ((closer_eq_false_iff (d := ⟨tq', seg2'⟩) hden hc hd).mpr (le_of_eq heq.symm))⟩

/-! The fixed table -/

/-- A candidate that is preferred to every other of a list is its best. -/
theorem bestOf_of_preferred {cfg : Config} {l : List Candidate} {c : Candidate} (hc : c ∈ l)
    (h : ∀ d ∈ l, d = c ∨ (preferred cfg c d = true ∧ preferred cfg d c = false)) : bestOf cfg l = some c := by
  induction l with
  | nil => cases hc
  | cons x xs ih =>
    have hxs : ∀ d ∈ xs, d = c ∨ (preferred cfg c d = true ∧ preferred cfg d c = false) :=
      fun d hd => h d (List.mem_cons_of_mem x hd)
    by_cases hmem : c ∈ xs
    · rw [bestOf, ih hmem hxs]
      rcases h x List.mem_cons_self with rfl | ⟨hpref, -⟩
      · exact ite_self _
      · exact if_pos hpref
    · obtain rfl : c = x := (List.mem_cons.mp hc).resolve_right hmem
      rw [bestOf]
      cases hbest : bestOf cfg xs with
      | none => rfl
      | some d =>
        have hd := bestOf_mem hbest
        rcases hxs d hd with rfl | ⟨-, hnot⟩
        · exact absurd hd hmem
        · simp [hnot]

/-- The candidate of a row of the table. -/
def rowCandidate (row : Nat × Nat × Nat) : Candidate := ⟨row.1, row.2.2⟩

/-- Each row's candidate is preferred to every other candidate of a list whose `TQ` no earlier row has, and the rows
leave out no `TQ` of the list. -/
def tableOrders (prefers : Candidate → Candidate → Bool) : List (Nat × Nat × Nat) → List Candidate → Bool
  | [], l => l.isEmpty
  | row :: rows, l => l.contains (rowCandidate row)
    && l.all (fun d => decide (d = rowCandidate row)
      || (prefers (rowCandidate row) d && !prefers d (rowCandidate row)))
    && tableOrders prefers rows (l.filter fun d => decide (d.tq ≠ row.1))

/-- The best of the candidates whose `TQ` fits is the candidate of the first row that fits. -/
theorem bestOf_eq_firstRow {cfg : Config} (fits : Nat → Bool) (rows : List (Nat × Nat × Nat)) (l : List Candidate)
    (h : tableOrders (preferred cfg) rows l = true) :
    bestOf cfg (l.filter fun c => fits c.tq) = (rows.find? fun row => fits row.1).map rowCandidate := by
  induction rows generalizing l with
  | nil =>
    obtain rfl : l = [] := List.isEmpty_iff.mp h
    rfl
  | cons row rows ih =>
    simp only [tableOrders, Bool.and_eq_true, List.contains_iff_mem, List.all_eq_true, Bool.or_eq_true,
      decide_eq_true_eq, Bool.not_eq_true'] at h
    obtain ⟨⟨hmem, hbest⟩, hrest⟩ := h
    rcases Bool.eq_false_or_eq_true (fits row.1) with hfits | hfits
    · rw [List.find?_cons_of_pos (by exact hfits)]
      exact bestOf_of_preferred (List.mem_filter.mpr ⟨hmem, hfits⟩) fun d hd => hbest d (List.mem_filter.mp hd).1
    · rw [List.find?_cons_of_neg (by simp [hfits]), ← ih _ hrest, List.filter_filter]
      congr 1
      refine List.filter_congr fun d _ => ?_
      by_cases hd : d.tq = row.1
      · simp [hd, hfits]
      · simp [hd]

/-- Whether a `TQ` divides the clock exactly with a prescaler in 1 to 1024, as a row of the table is tested. -/
def fitsTable (clockHz bitrateBps : U32) (tq : Nat) : Bool :=
  let d := bitrateBps.toNat * tq
  decide (d ≠ 0) && decide (clockHz.toNat % d = 0) && decide (1 ≤ clockHz.toNat / d)
    && decide (clockHz.toNat / d ≤ 1024)

/-- The candidates of the fixed segment ranges, for the default range of `TQ`. -/
def fixedCandidates : List Candidate :=
  (searchSpace Config.default).filter fun c => decide (1 ≤ seg1Of c) && decide (seg1Of c ≤ 16)

theorem timingTable_orders : tableOrders (preferred Config.default) timingTable fixedCandidates = true := by
  decide +kernel

theorem timingTable_seg1 : ∀ row ∈ timingTable, (seg1Of (rowCandidate row)).toNat = row.2.1 := by decide

theorem preferred_of_fixedValues {cfg : Config} (hnum : cfg.targetNum = 7) (hden : cfg.targetDen = 8)
    (htie : cfg.seg2Tie = .smaller) : preferred cfg = preferred Config.default := by
  funext c d
  simp only [preferred, closer, offTarget, hnum, hden, htie]
  rfl

theorem candidates_of_fixedValues {cfg : Config} {clockHz bitrateBps : U32} (hfixed : cfg.fixedValues = true)
    (hmin : cfg.tqMin = 8) (hmax : cfg.tqMax = 25) :
    (searchSpace cfg).filter (accepted cfg clockHz.toNat bitrateBps.toNat)
      = fixedCandidates.filter fun c => fitsTable clockHz bitrateBps c.tq := by
  simp only [Config.fixedValues, Bool.and_eq_true, decide_eq_true_eq] at hfixed
  obtain ⟨⟨⟨⟨⟨⟨⟨⟨⟨⟨-, hs2min⟩, hs2max⟩, hs1min⟩, hs1max⟩, hpmin⟩, hpmax⟩, -⟩, -⟩, -⟩, -⟩ := hfixed
  have hspace : searchSpace cfg = searchSpace Config.default := by
    simp only [searchSpace, hmin, hmax, hs2min, hs2max]
    rfl
  rw [hspace, fixedCandidates, List.filter_filter]
  refine List.filter_congr fun c _ => ?_
  simp only [accepted, fitsTable, prescalerOf, hs1min, hs1max, hpmin, hpmax, Nat.cast_one, Nat.cast_ofNat]
  ac_rfl

/-- Settles O32: the table lists the best candidate of each `TQ`, in the order of preference. -/
theorem bitTimingSearchEqualsTheTable : Obligations.BitTimingSearchEqualsTheTable := by
  intro cfg clockHz bitrateBps hfixed hmin hmax htie
  have hvalues := hfixed
  simp only [Config.fixedValues, Bool.and_eq_true, decide_eq_true_eq] at hvalues
  obtain ⟨⟨⟨⟨-, hnum⟩, hden⟩, -⟩, -⟩ := hvalues
  have horder : tableOrders (preferred cfg) timingTable fixedCandidates = true := by
    rw [preferred_of_fixedValues hnum hden htie]
    exact timingTable_orders
  have hwinner : winner cfg clockHz bitrateBps
      = (timingTable.find? fun row => fitsTable clockHz bitrateBps row.1).map rowCandidate := by
    rw [winner, candidates_of_fixedValues hfixed hmin hmax]
    exact bestOf_eq_firstRow (fitsTable clockHz bitrateBps) timingTable fixedCandidates horder
  have htable : tableSynthesize clockHz bitrateBps
      = (timingTable.find? fun row => fitsTable clockHz bitrateBps row.1).map fun row =>
        { prescaler := BitVec.ofNat 32 (clockHz.toNat / (bitrateBps.toNat * row.1))
          seg1 := BitVec.ofNat 8 row.2.1
          seg2 := BitVec.ofNat 8 row.2.2 } := rfl
  rw [synthesize, hwinner, htable, Option.map_map]
  cases hrow : timingTable.find? fun row => fitsTable clockHz bitrateBps row.1 with
  | none => rfl
  | some row =>
    have hseg1 := timingTable_seg1 row (List.mem_of_find?_eq_some hrow)
    simp only [Option.map_some, Function.comp_apply, paramsOf, hseg1]
    rfl

end Sys2Proof.Machine

/-! PROOFS. The invariant: each group of it under every operation, at reset and in every step, and the statements O54
to O57 (10_state.md sections 1 and 4; 60_exceptions.md R310; 70_reset_and_hazards.md R350). -/

namespace Sys2Proof.Machine

open Sys2Proof

/-! Operations that read the mailbox -/

/-- What a read of the mailbox does to the mailbox, the latch and the flags: nothing, or a drain, which `MD_FETCH`
latches (43_can_receive.md R214; 44_can_mode_decode.md R231). -/
theorem exec_read_cases {i : Instr} {s t : State}
    (hi : i = .recvNb ∨ (∃ f, i = .recvBlk f) ∨ ∃ f, i = .mdFetch f) (h : exec i s = .next t) :
    t = { s with resp := t.resp }
    ∨ (s.mbFull = true ∧ t.mbFull = false ∧ t.ev = (drainMailbox s).ev
      ∧ ((t.md = s.md ∧ t.mdHave = s.mdHave) ∨ t.md = s.mb)) := by
  rcases Bool.eq_false_or_eq_true s.mbFull with hfull | hempty
  · refine .inr ⟨hfull, ?_⟩
    rcases hi with rfl | ⟨f, rfl⟩ | ⟨f, rfl⟩
    · cases (exec_recvNb_full hfull).symm.trans h
      exact ⟨drainMailbox_mbFull s, rfl, .inl ⟨drainMailbox_md s, drainMailbox_mdHave s⟩⟩
    · cases (exec_recvBlk_full hfull).symm.trans h
      exact ⟨drainMailbox_mbFull s, rfl, .inl ⟨drainMailbox_md s, drainMailbox_mdHave s⟩⟩
    · cases (exec_mdFetch_full hfull).symm.trans h
      exact ⟨drainMailbox_mbFull s, rfl, .inr rfl⟩
  · refine .inl ?_
    rcases hi with rfl | ⟨f, rfl⟩ | ⟨f, rfl⟩
    · cases (exec_recvNb_empty hempty).symm.trans h
      rfl
    · exact (waitOrExpire_next ((exec_recvBlk_empty hempty).symm.trans h)).1
    · exact (waitOrExpire_next ((exec_mdFetch_empty hempty).symm.trans h)).1

/-! The front end -/

theorem timerInv_tick {s : State} (hw : s.cfg.cntW ≤ 32) (hinv : TimerInv s) :
    TimerInv { s with
      cnt := nextCount s.cfg s.cnt
      wrapped := s.wrapped || decide (2 ^ s.cfg.cntW ≤ s.cnt.toNat + 1)
      resp := .empty } where
  cnt := by
    rw [nextCount_toNat hw]
    exact Nat.mod_lt _ (by positivity)
  ccrPeriod := hinv.ccrPeriod
  ccrPulse := hinv.ccrPulse
  armed := hinv.armed
  pulse := by
    intro ha hl hwrap
    simp only [Bool.or_eq_false_iff, decide_eq_false_iff_not, not_le] at hwrap
    have hle := hinv.pulse ha hl hwrap.1
    change s.ccrPulse.toNat ≤ (nextCount s.cfg s.cnt).toNat
    rw [nextCount_toNat hw, Nat.mod_eq_of_lt hwrap.2]
    omega

/-- The capture at a rising edge reaches the capture cell only, and the choice of free values. -/
theorem captureAtRise_frame (s : State) : captureAtRise s = { s with
    periodTicks := (captureAtRise s).periodTicks, pulseTicks := (captureAtRise s).pulseTicks
    hasNew := (captureAtRise s).hasNew, draws := (captureAtRise s).draws } := by
  unfold captureAtRise storeWrappedCapture
  split_ifs
  · split <;> rfl
  all_goals rfl

theorem timerInv_rise {s t : State} (hinv : TimerInv s) (h : exec .rise s = .next t) : TimerInv t := by
  have hl : s.lvl ≠ .high := fun hh => by cases (exec_rise_refused hh).symm.trans h
  cases (exec_rise_accepted hl).symm.trans h
  rw [captureAtRise_frame]
  exact ⟨by change 0 < _; positivity, hinv.cnt, hinv.ccrPulse, nofun, nofun⟩

theorem timerInv_fall {s t : State} (hinv : TimerInv s) (h : exec .fall s = .next t) : TimerInv t := by
  have hl : s.lvl ≠ .low := fun hh => by cases (exec_fall_refused hh).symm.trans h
  cases (exec_fall_accepted hl).symm.trans h
  exact ⟨hinv.cnt, hinv.ccrPeriod, hinv.cnt, nofun, fun _ _ _ => le_refl _⟩

theorem timerInv_reset {s : State} (hw : s.cfg.cntW ≤ 32) : TimerInv (resetBlock s) where
  cnt := by change 0 < _; positivity
  ccrPeriod := truncTicks_lt hw _
  ccrPulse := truncTicks_lt hw _
  armed := nofun
  pulse := nofun

theorem exec_keeps_timerInv {i : Instr} {s t : State} (hw : s.cfg.cntW ≤ 32) (hinv : TimerInv s)
    (h : exec i s = .next t) : TimerInv t := by
  cases i with
  | reset =>
    obtain rfl := respond_eq_next.mp h
    have hr := timerInv_reset (s := s) hw
    exact ⟨hr.cnt, hr.ccrPeriod, hr.ccrPulse, hr.armed, hr.pulse⟩
  | tick =>
    cases (exec_tick s).symm.trans h
    exact timerInv_tick hw hinv
  | rise => exact timerInv_rise hinv h
  | fall => exact timerInv_fall hinv h
  | _ =>
    rw [exec_frame h]
    exact ⟨hinv.cnt, hinv.ccrPeriod, hinv.ccrPulse, hinv.armed, hinv.pulse⟩

/-! The zero reference -/

/-- The reference taken from an accepted pair is positive over the rationals (R155). -/
theorem absoluteAngle_positive {cfg : Config} {period pulse : U32} {a : Rat} (hnum : cfg.num = .rational)
    (h0 : 0 < pulse.toNat) (h1 : pulse.toNat < period.toNat) (ha : absoluteAngle cfg period pulse = some a) :
    0 < a := by
  have h0' : (0 : Rat) < pulse.toNat := by exact_mod_cast h0
  have h1' : (pulse.toNat : Rat) < period.toNat := by exact_mod_cast h1
  have hp : (0 : Rat) < period.toNat := h0'.trans h1'
  rw [absoluteAngle_rational hnum h0 h1] at ha
  injection ha with ha
  rw [← ha]
  split
  · positivity
  · exact div_pos (mul_pos (by norm_num) (sub_pos.mpr h1')) hp

theorem zeroInv_getAngle {s t : State} (hinv : ZeroInv s) (h : exec .getAngle s = .next t) : ZeroInv t := by
  rcases exec_getAngle_cases h with rfl | ⟨-, h0, h1, a, ha, rfl⟩ | ⟨-, -, -, a, rel, -, -, rfl⟩
  · exact ⟨hinv.low, hinv.high, hinv.positive⟩
  · obtain ⟨a', ha', hlow, hhigh⟩ := absoluteAngle_range s.cfg h1
    cases ha.symm.trans ha'
    exact ⟨fun _ => hlow, fun _ => hhigh, fun _ hnum => absoluteAngle_positive hnum h0 h1 ha⟩
  · exact ⟨hinv.low, hinv.high, hinv.positive⟩

theorem exec_keeps_zeroInv {i : Instr} {s t : State} (hinv : ZeroInv s) (h : exec i s = .next t) : ZeroInv t := by
  cases i with
  | reset =>
    obtain rfl := respond_eq_next.mp h
    exact ⟨nofun, nofun, nofun⟩
  | getAngle => exact zeroInv_getAngle hinv h
  | _ =>
    rw [exec_frame h]
    exact ⟨hinv.low, hinv.high, hinv.positive⟩

/-! The bit-timing registers -/

theorem timingInv_btSynth {s t : State} {clockHz bitrateBps : U32} (hseg2 : s.cfg.seg2Max ≤ 255)
    (hseg1 : s.cfg.seg1Max ≤ 255) (h : exec (.btSynth clockHz bitrateBps) s = .next t) : TimingInv t := by
  cases hw : winner s.cfg clockHz bitrateBps with
  | none =>
    cases (exec_btSynth_none hw).symm.trans h
    exact ⟨nofun, nofun, nofun, nofun⟩
  | some c =>
    cases (exec_btSynth_found hw).symm.trans h
    obtain ⟨hmem, ha⟩ := winner_accepted hw
    obtain ⟨h1, h2, h3, h4⟩ := mem_searchSpace.mp hmem
    obtain ⟨-, -, hpMin, hpMax, hlow, hhigh⟩ := accepted_iff.mp ha
    obtain ⟨hp, hs1, hs2⟩ := paramsOf_toNat (by omega) hseg1 ha
    constructor <;> intro _ <;> simp only [hp, hs1, hs2]
    · exact ⟨hpMin, hpMax⟩
    all_goals omega

theorem exec_keeps_timingInv {i : Instr} {s t : State} (hseg2 : s.cfg.seg2Max ≤ 255) (hseg1 : s.cfg.seg1Max ≤ 255)
    (hinv : TimingInv s) (h : exec i s = .next t) : TimingInv t := by
  cases i with
  | reset =>
    obtain rfl := respond_eq_next.mp h
    exact ⟨nofun, nofun, nofun, nofun⟩
  | btSynth clockHz bitrateBps => exact timingInv_btSynth hseg2 hseg1 h
  | _ =>
    rw [exec_frame h]
    exact ⟨hinv.prescaler, hinv.seg1, hinv.seg2, hinv.quanta⟩

/-! The mailbox and the latch -/

theorem frameInv_read {i : Instr} {s t : State} (hi : i = .recvNb ∨ (∃ f, i = .recvBlk f) ∨ ∃ f, i = .mdFetch f)
    (hinv : FrameInv s) (h : exec i s = .next t) : FrameInv t := by
  rcases exec_read_cases hi h with ht | ⟨hfull, hempty, -, ⟨hmd, hhave⟩ | hmd⟩
  · rw [ht]
    exact ⟨hinv.mailbox, hinv.latch⟩
  · exact ⟨by simp [hempty], by rw [hmd, hhave]; exact hinv.latch⟩
  · exact ⟨by simp [hempty], fun _ => by rw [hmd]; exact hinv.mailbox hfull⟩

theorem exec_keeps_frameInv {i : Instr} {s t : State} (hinv : FrameInv s) (h : exec i s = .next t) : FrameInv t := by
  cases i with
  | reset =>
    obtain rfl := respond_eq_next.mp h
    exact ⟨nofun, nofun⟩
  | rxFrame f =>
    by_cases hlen : f.len.toNat ≤ 8
    · cases (exec_rxFrame_accepted hlen).symm.trans h
      rw [notifyFrame_frame]
      exact ⟨fun _ => lengthLegal_iff.mpr hlen, hinv.latch⟩
    · cases (exec_rxFrame_refused (by omega)).symm.trans h
  | recvNb => exact frameInv_read (.inl rfl) hinv h
  | recvBlk finite => exact frameInv_read (.inr (.inl ⟨finite, rfl⟩)) hinv h
  | mdFetch finite => exact frameInv_read (.inr (.inr ⟨finite, rfl⟩)) hinv h
  | mdApply =>
    rcases Bool.eq_false_or_eq_true s.mdHave with hhave | hnone
    · obtain ⟨u, hu, -, hframe⟩ := exec_mdApply_latched hhave
      cases hu.symm.trans h
      rw [hframe]
      exact ⟨hinv.mailbox, nofun⟩
    · cases (exec_mdApply_empty hnone).symm.trans h
      exact ⟨hinv.mailbox, hinv.latch⟩
  | _ =>
    rw [exec_frame h]
    exact ⟨hinv.mailbox, hinv.latch⟩

/-! The debounce counters -/

theorem steerInv_cleared {s : State} (hN : 1 ≤ s.cfg.debounceN) (hl : s.cntLeft = 0) (hr : s.cntRight = 0)
    (hc : s.cntCenter = 0) : SteerInv s :=
  ⟨by omega, by omega, by omega, fun _ => ⟨hc, .inl hl⟩, fun _ => ⟨hl, hr⟩⟩

theorem steerInv_enterSteer {s : State} (hN : 1 ≤ s.cfg.debounceN) (target : Steer) (m : Byte) :
    SteerInv (enterSteer s target m) := steerInv_cleared hN rfl rfl rfl

theorem steerInv_sampleCenter {s : State} {a : AnglePort} (hN : 1 ≤ s.cfg.debounceN) (hth : 0 < s.cfg.thTurn)
    (hs : s.steer = .center) (hinv : SteerInv s) : SteerInv (sampleCenter s a) := by
  obtain ⟨hcenter, -⟩ := hinv.atCenter hs
  have hturned : s.steer ≠ .center → ∀ p : Prop, p := fun h => absurd hs h
  rcases Bool.eq_false_or_eq_true (turnsLeft s.cfg a) with hl | hl
  · have hr := turnsRight_of_turnsLeft hth hl
    rcases lt_or_ge (s.cntLeft + 1) s.cfg.debounceN with hlt | hge
    · rw [sampleCenter_left_counts hN hl hr hlt]
      exact ⟨hlt, hN, hinv.center, fun _ => ⟨hcenter, .inr rfl⟩, fun h => hturned h _⟩
    · rw [sampleCenter_left_turns hl hr hge]
      exact steerInv_enterSteer (by exact hN) _ _
  · rcases Bool.eq_false_or_eq_true (turnsRight s.cfg a) with hr | hr
    · rcases lt_or_ge (s.cntRight + 1) s.cfg.debounceN with hlt | hge
      · rw [sampleCenter_right_counts hN hl hr hlt]
        exact ⟨hN, hlt, hinv.center, fun _ => ⟨hcenter, .inl rfl⟩, fun h => hturned h _⟩
      · rw [sampleCenter_right_turns hN hl hr hge]
        exact steerInv_enterSteer (by exact hN) _ _
    · rw [sampleCenter_neither hN hl hr]
      exact ⟨hN, hN, hinv.center, fun _ => ⟨hcenter, .inl rfl⟩, fun h => hturned h _⟩

theorem steerInv_sampleTurned {s : State} {a : AnglePort} (hN : 1 ≤ s.cfg.debounceN) (hs : s.steer ≠ .center)
    (hinv : SteerInv s) : SteerInv (sampleTurned s a) := by
  rcases Bool.eq_false_or_eq_true (nearCenter s.cfg a) with hc | hc
  · rcases lt_or_ge (s.cntCenter + 1) s.cfg.debounceN with hlt | hge
    · rw [sampleTurned_counts hc hlt]
      exact ⟨hinv.left, hinv.right, hlt, fun h => absurd h hs, hinv.turned⟩
    · rw [sampleTurned_returns hc hge]
      exact steerInv_enterSteer (by exact hN) _ _
  · rw [sampleTurned_fails hN hc]
    exact ⟨hinv.left, hinv.right, hN, fun h => absurd h hs, hinv.turned⟩

theorem exec_keeps_steerInv {i : Instr} {s t : State} (hN : 1 ≤ s.cfg.debounceN) (hth : 0 < s.cfg.thTurn)
    (hinv : SteerInv s) (h : exec i s = .next t) : SteerInv t := by
  cases i with
  | reset =>
    obtain rfl := respond_eq_next.mp h
    exact steerInv_cleared (by exact hN) rfl rfl rfl
  | fsmSample valid a =>
    cases valid with
    | false =>
      cases (exec_fsmSample_invalid s a).symm.trans h
      exact steerInv_cleared (by exact hN) rfl rfl rfl
    | true =>
      by_cases hs : s.steer = .center
      · cases (exec_fsmSample_center hs).symm.trans h
        have hc := steerInv_sampleCenter (a := a) hN hth hs hinv
        exact ⟨hc.left, hc.right, hc.center, hc.atCenter, hc.turned⟩
      · cases (exec_fsmSample_turned hs).symm.trans h
        have hc := steerInv_sampleTurned (a := a) hN hs hinv
        exact ⟨hc.left, hc.right, hc.center, hc.atCenter, hc.turned⟩
  | _ =>
    rw [exec_frame h]
    exact ⟨hinv.left, hinv.right, hinv.center, hinv.atCenter, hinv.turned⟩

/-! Bit 7 of `ev` -/

/-- Bit 7 of `ev` is 0 (10_state.md R34). -/
def EvValid (s : State) : Prop := s.ev &&& 0x80 = 0

/-- What every write leaves in `ev`. -/
theorem masked_bit7 (v : Byte) : v &&& evValid &&& 0x80 = 0 := by
  have hbits : evValid &&& 0x80#8 = 0#8 := by decide
  exact (BitVec.and_assoc _ _ _).trans ((congrArg (v &&& ·) hbits).trans BitVec.and_zero)

theorem evValid_notifyFrame {s : State} (h : EvValid s) : EvValid (notifyFrame s) := by
  unfold notifyFrame
  split
  · exact masked_bit7 _
  · exact h

theorem evValid_drainMailbox {s : State} (h : EvValid s) : EvValid (drainMailbox s) := by
  unfold drainMailbox unnotifyFrame
  split
  · exact masked_bit7 _
  · exact h

theorem evValid_maintainMode {s : State} (h : EvValid s) (d : Byte) : EvValid (maintainMode s d) := by
  unfold maintainMode
  split
  · exact h
  · exact masked_bit7 _

theorem evValid_sampleCenter {s : State} (h : EvValid s) (a : AnglePort) : EvValid (sampleCenter s a) := by
  simp only [sampleCenter]
  split_ifs
  · exact masked_bit7 _
  · exact masked_bit7 _
  · exact h

theorem evValid_sampleTurned {s : State} (h : EvValid s) (a : AnglePort) : EvValid (sampleTurned s a) := by
  simp only [sampleTurned]
  split_ifs
  · exact masked_bit7 _
  · exact h

theorem evValid_read {i : Instr} {s t : State} (hi : i = .recvNb ∨ (∃ f, i = .recvBlk f) ∨ ∃ f, i = .mdFetch f)
    (hinv : EvValid s) (h : exec i s = .next t) : EvValid t := by
  rcases exec_read_cases hi h with ht | ⟨-, -, hev, -⟩
  · rw [ht]
    exact hinv
  · rw [EvValid, hev]
    exact evValid_drainMailbox hinv

theorem exec_keeps_evValid {i : Instr} {s t : State} (hinv : EvValid s) (h : exec i s = .next t) : EvValid t := by
  cases i with
  | reset =>
    obtain rfl := respond_eq_next.mp h
    exact (by decide : (0x00 : Byte) &&& 0x80 = 0)
  | rxFrame f =>
    by_cases hlen : f.len.toNat ≤ 8
    · cases (exec_rxFrame_accepted hlen).symm.trans h
      exact evValid_notifyFrame (s := { s with mb := f, mbFull := true }) hinv
    · cases (exec_rxFrame_refused (by omega)).symm.trans h
  | recvNb => exact evValid_read (.inl rfl) hinv h
  | recvBlk finite => exact evValid_read (.inr (.inl ⟨finite, rfl⟩)) hinv h
  | mdFetch finite => exact evValid_read (.inr (.inr ⟨finite, rfl⟩)) hinv h
  | mdApply =>
    rcases Bool.eq_false_or_eq_true s.mdHave with hhave | hnone
    · cases hd : decodeMode s.cfg s.md with
      | error r =>
        cases (exec_mdApply_dropped hhave hd).symm.trans h
        exact hinv
      | ok m =>
        cases (exec_mdApply_known hhave hd).symm.trans h
        exact evValid_maintainMode hinv (desiredFlags m)
    · cases (exec_mdApply_empty hnone).symm.trans h
      exact hinv
  | evSet mask =>
    obtain rfl := respond_eq_next.mp h
    exact masked_bit7 _
  | evClear mask =>
    obtain rfl := respond_eq_next.mp h
    exact masked_bit7 _
  | evWait mask clearOnExit finite =>
    by_cases hup : readEv s &&& mask &&& 0x7F = 0
    · rw [(waitOrExpire_next ((exec_evWait_down hup).symm.trans h)).1]
      exact hinv
    · cases (exec_evWait_up hup).symm.trans h
      cases clearOnExit with
      | true => exact masked_bit7 _
      | false => exact hinv
  | fsmSample valid a =>
    cases valid with
    | false =>
      cases (exec_fsmSample_invalid s a).symm.trans h
      exact hinv
    | true =>
      by_cases hs : s.steer = .center
      · cases (exec_fsmSample_center hs).symm.trans h
        exact evValid_sampleCenter hinv a
      · cases (exec_fsmSample_turned hs).symm.trans h
        exact evValid_sampleTurned hinv a
  | _ =>
    rw [exec_frame h]
    exact hinv

/-! The invariant -/

theorem exec_keeps_inv {i : Instr} {s t : State} (hinv : Inv s) (h : exec i s = .next t) : Inv t := by
  obtain ⟨⟨-, hcntW⟩, -, ⟨hseg2, hseg1⟩, -, -, -, hN, hth⟩ := config_wf hinv.cfg
  exact {
    cfg := by rw [(exec_keeps_environment h).1]; exact hinv.cfg
    timer := exec_keeps_timerInv hcntW hinv.timer h
    zero := exec_keeps_zeroInv hinv.zero h
    timing := exec_keeps_timingInv hseg2 hseg1 hinv.timing h
    frames := exec_keeps_frameInv hinv.frames h
    steer := exec_keeps_steerInv hN hth hinv.steer h
    ev := exec_keeps_evValid hinv.ev h }

/-- The invariant does not speak of the agents and the schedule. -/
theorem inv_environment {s : State} (hinv : Inv s) (agents : List Agent) (sched : List Turn) (expire : Bool) :
    Inv { s with agents := agents, sched := sched, expire := expire } where
  cfg := hinv.cfg
  timer := ⟨hinv.timer.cnt, hinv.timer.ccrPeriod, hinv.timer.ccrPulse, hinv.timer.armed, hinv.timer.pulse⟩
  zero := ⟨hinv.zero.low, hinv.zero.high, hinv.zero.positive⟩
  timing := ⟨hinv.timing.prescaler, hinv.timing.seg1, hinv.timing.seg2, hinv.timing.quanta⟩
  frames := ⟨hinv.frames.mailbox, hinv.frames.latch⟩
  steer := ⟨hinv.steer.left, hinv.steer.right, hinv.steer.center, hinv.steer.atCenter, hinv.steer.turned⟩
  ev := hinv.ev

theorem inv_beginTurn {s : State} (hinv : Inv s) (turn : Turn) : Inv (beginTurn turn s) :=
  inv_environment hinv s.agents s.sched turn.expire

/-- Settles O56: every operation keeps every group, and a turn adds to it only in the agents and the schedule. -/
theorem everyStepKeepsTheInvariant : Obligations.EveryStepKeepsTheInvariant := by
  intro s u hinv h
  rcases step_next_cases h with ⟨-, rfl⟩ | ⟨turn, r, i, t, -, -, ht, rfl⟩
  · exact inv_environment hinv s.agents s.sched.tail s.expire
  · exact inv_environment (exec_keeps_inv (inv_beginTurn hinv turn) ht) _ _ t.expire

/-- Settles O54. -/
theorem resetEstablishesTheStartState : Obligations.ResetEstablishesTheStartState := by
  intro s
  refine ⟨_, rfl, rfl, rfl, rfl, rfl, rfl, rfl, rfl, rfl, rfl, rfl, rfl, rfl, rfl, rfl, rfl, rfl, rfl, rfl, rfl,
    fun hwf => ?_⟩
  obtain ⟨⟨-, hcntW⟩, -, -, -, -, -, hN, -⟩ := config_wf hwf
  have ht := timerInv_reset (s := s) hcntW
  exact {
    cfg := hwf
    timer := ⟨ht.cnt, ht.ccrPeriod, ht.ccrPulse, ht.armed, ht.pulse⟩
    zero := ⟨nofun, nofun, nofun⟩
    timing := ⟨nofun, nofun, nofun, nofun⟩
    frames := ⟨nofun, nofun⟩
    steer := steerInv_cleared (by exact hN) rfl rfl rfl
    ev := (by decide : (0x00 : Byte) &&& 0x80 = 0) }

/-- Settles O55. -/
theorem powerUpStateSatisfiesTheInvariant : Obligations.PowerUpStateSatisfiesTheInvariant where
  cfg := by decide +kernel
  timer := ⟨by decide, by decide, by decide, nofun, nofun⟩
  zero := ⟨nofun, nofun, nofun⟩
  timing := ⟨nofun, nofun, nofun, nofun⟩
  frames := ⟨nofun, nofun⟩
  steer := steerInv_cleared (by decide) rfl rfl rfl
  ev := by decide

/-! How operations end -/

theorem waitOrExpire_completes (s : State) (finite : Bool) (r : Response) :
    waitOrExpire s finite r = .next { s with resp := r }
      ∨ waitOrExpire s finite r = .next { s with resp := .waiting } := by
  unfold waitOrExpire
  split
  · exact .inl rfl
  · exact .inr rfl

/-- How an operation can end: most answer; the blocking ones may wait instead, which changes nothing; the loops of
`GET_ANGLE` may be endless; and the interface refuses an edge the pin cannot make and a frame that is too long. -/
inductive Ends (s : State) : Instr → Prop
  | answers {i t} (h : exec i s = .next t) (hresp : t.resp ≠ .waiting) : Ends s i
  | waits {i} (h : exec i s = .next { s with resp := .waiting })
      (hi : (∃ f, i = .recvBlk f) ∨ (∃ f, i = .mdFetch f) ∨ ∃ m c f, i = .evWait m c f) : Ends s i
  | endless (h : exec .getAngle s = .fault .angleLoopEndless) : Ends s .getAngle
  | riseRefused (h : exec .rise s = .refused .riseWhileHigh) : Ends s .rise
  | fallRefused (h : exec .fall s = .refused .fallWhileLow) : Ends s .fall
  | frameRefused {f} (hlen : 8 < f.len.toNat) (h : exec (.rxFrame f) s = .refused .frameLength) : Ends s (.rxFrame f)

theorem ends_of_waitOrExpire {s : State} {i : Instr} {finite : Bool} {r : Response}
    (hi : (∃ f, i = .recvBlk f) ∨ (∃ f, i = .mdFetch f) ∨ ∃ m c f, i = .evWait m c f)
    (h : exec i s = waitOrExpire s finite r) (hr : r ≠ .waiting) : Ends s i := by
  rcases waitOrExpire_completes s finite r with hw | hw
  · exact .answers (h.trans hw) hr
  · exact .waits (h.trans hw) hi

theorem ends_getAngle (s : State) : Ends s .getAngle := by
  rcases Bool.eq_false_or_eq_true s.hasNew with hn | hn
  · by_cases hr : s.periodTicks.toNat = 0 ∨ s.pulseTicks.toNat = 0 ∨ s.periodTicks.toNat ≤ s.pulseTicks.toNat
    · exact .answers (execGetAngle_rejected hn hr) nofun
    · have h0 : 0 < s.pulseTicks.toNat := by omega
      have h1 : s.pulseTicks.toNat < s.periodTicks.toNat := by omega
      obtain ⟨a, ha, -⟩ := absoluteAngle_range s.cfg h1
      rcases Bool.eq_false_or_eq_true s.zeroInit with hz | hz
      · cases hrel : relativeAngle s.cfg a s.zeroDegrees with
        | some rel => exact .answers (exec_getAngle_relative hn hz h0 h1 ha hrel) nofun
        | none =>
          refine .endless ?_
          rw [exec_getAngle, execGetAngle_accepted hn h0 h1, if_neg (by simp [hz])]
          simp only [takeRelative, ha, hrel]
      · exact .answers (exec_getAngle_zero hn hz h0 h1 ha) nofun
  · exact .answers (execGetAngle_noNewCapture hn) nofun

theorem exec_ends (i : Instr) (s : State) : Ends s i := by
  cases i with
  | idle | reset | tick | capture | evSet | evClear => exact .answers rfl nofun
  | getAngle => exact ends_getAngle s
  | rise =>
    by_cases hl : s.lvl = .high
    · exact .riseRefused (exec_rise_refused hl)
    · exact .answers (exec_rise_accepted hl) nofun
  | fall =>
    by_cases hl : s.lvl = .low
    · exact .fallRefused (exec_fall_refused hl)
    · exact .answers (exec_fall_accepted hl) nofun
  | btSynth clockHz bitrateBps =>
    cases hw : winner s.cfg clockHz bitrateBps with
    | none => exact .answers (exec_btSynth_none hw) nofun
    | some c => exact .answers (exec_btSynth_found hw) nofun
  | rxFrame f =>
    rcases le_or_gt f.len.toNat 8 with hlen | hlen
    · exact .answers (exec_rxFrame_accepted hlen) nofun
    · exact .frameRefused hlen (exec_rxFrame_refused hlen)
  | recvNb =>
    rcases Bool.eq_false_or_eq_true s.mbFull with hfull | hempty
    · exact .answers (exec_recvNb_full hfull) nofun
    · exact .answers (exec_recvNb_empty hempty) nofun
  | recvBlk finite =>
    rcases Bool.eq_false_or_eq_true s.mbFull with hfull | hempty
    · exact .answers (exec_recvBlk_full hfull) nofun
    · exact ends_of_waitOrExpire (.inl ⟨finite, rfl⟩) (exec_recvBlk_empty hempty) nofun
  | mdFetch finite =>
    rcases Bool.eq_false_or_eq_true s.mbFull with hfull | hempty
    · exact .answers (exec_mdFetch_full hfull) nofun
    · exact ends_of_waitOrExpire (.inr (.inl ⟨finite, rfl⟩)) (exec_mdFetch_empty hempty) nofun
  | mdApply =>
    rcases Bool.eq_false_or_eq_true s.mdHave with hhave | hnone
    · obtain ⟨t, ht, -, hframe⟩ := exec_mdApply_latched hhave
      exact .answers ht (by rw [hframe]; nofun)
    · exact .answers (exec_mdApply_empty hnone) nofun
  | evWait mask clearOnExit finite =>
    by_cases hup : readEv s &&& mask &&& 0x7F = 0
    · exact ends_of_waitOrExpire (.inr (.inr ⟨mask, clearOnExit, finite, rfl⟩)) (exec_evWait_down hup) nofun
    · exact .answers (exec_evWait_up hup) nofun
  | fsmSample valid a =>
    cases valid with
    | false => exact .answers (exec_fsmSample_invalid s a) nofun
    | true =>
      by_cases hs : s.steer = .center
      · exact .answers (exec_fsmSample_center hs) nofun
      · exact .answers (exec_fsmSample_turned hs) nofun
  | canSend f txFree =>
    by_cases hsent : 8 < f.len.toNat ∨ txFree = false
    · exact .answers (exec_canSend_failed hsent) nofun
    · rw [not_or, Bool.not_eq_false] at hsent
      exact .answers (exec_canSend_ok (by omega) hsent.2) nofun

/-- Only the loops of `GET_ANGLE` can fail to end. -/
theorem exec_fault {i : Instr} {s : State} {e : Fault} (h : exec i s = .fault e) : i = .getAngle := by
  cases exec_ends i s with
  | endless => rfl
  | answers h' => cases h'.symm.trans h
  | waits h' => cases h'.symm.trans h
  | riseRefused h' => cases h'.symm.trans h
  | fallRefused h' => cases h'.symm.trans h
  | frameRefused _ h' => cases h'.symm.trans h

/-- What an operation itself refuses. -/
theorem exec_refused {i : Instr} {s : State} {e : Refusal} (h : exec i s = .refused e) :
    e = .riseWhileHigh ∨ e = .fallWhileLow ∨ (e = .frameLength ∧ ∃ f, i = .rxFrame f ∧ 8 < f.len.toNat) := by
  cases exec_ends i s with
  | answers h' => cases h'.symm.trans h
  | waits h' => cases h'.symm.trans h
  | endless h' => cases h'.symm.trans h
  | riseRefused h' =>
    cases h'.symm.trans h
    exact .inl rfl
  | fallRefused h' =>
    cases h'.symm.trans h
    exact .inr (.inl rfl)
  | frameRefused hlen h' =>
    cases h'.symm.trans h
    exact .inr (.inr ⟨rfl, _, rfl, hlen⟩)

/-- An operation that waits is a blocking one, and has changed nothing (20_memory.md R77; log entry 8). -/
theorem exec_waiting {i : Instr} {s t : State} (h : exec i s = .next t) (hresp : t.resp = .waiting) :
    t = { s with resp := .waiting }
      ∧ ((∃ f, i = .recvBlk f) ∨ (∃ f, i = .mdFetch f) ∨ ∃ m c f, i = .evWait m c f) := by
  cases exec_ends i s with
  | answers h' hresp' =>
    cases h'.symm.trans h
    exact absurd hresp hresp'
  | waits h' hi =>
    cases h'.symm.trans h
    exact ⟨rfl, hi⟩
  | endless h' => cases h'.symm.trans h
  | riseRefused h' => cases h'.symm.trans h
  | fallRefused h' => cases h'.symm.trans h
  | frameRefused _ h' => cases h'.symm.trans h

/-- Settles O57: of the operations only `GET_ANGLE` could fault, and from the invariant it completes. -/
theorem noStepFaultsFromTheInvariant : Obligations.NoStepFaultsFromTheInvariant := by
  intro s e hinv h
  obtain ⟨turn, r, i, -, -, hexec⟩ := step_fault_cases h
  obtain rfl := exec_fault hexec
  obtain ⟨t, ht⟩ := exec_getAngle_completes (inv_beginTurn hinv turn)
  cases ht.symm.trans hexec

end Sys2Proof.Machine

/-! PROOFS. The step: the request it takes, what it refuses, what the contexts protect, and the statements O6 to O9
(20_memory.md section 11; 60_exceptions.md sections 5 and 6). -/

namespace Sys2Proof.Machine

open Sys2Proof

/-! The request of a turn -/

theorem nextRequest_eq_some {s : State} {turn : Turn} {rest : List Turn} {a : Agent} {r : Request}
    {more : List Request} (hs : s.sched = turn :: rest) (ha : s.agents[turn.agent]? = some a)
    (hr : a.requests = r :: more) : nextRequest s = some (turn, r) := by
  simp only [nextRequest, hs, ha, hr]

/-- The request of a turn is the first of the agent the schedule chooses. -/
theorem nextRequest_some {s : State} {turn : Turn} {r : Request} (h : nextRequest s = some (turn, r)) :
    ∃ rest a more, s.sched = turn :: rest ∧ s.agents[turn.agent]? = some a ∧ a.requests = r :: more := by
  unfold nextRequest at h
  split at h
  · cases h
  · rename_i turn' rest hs
    split at h
    · cases h
    · rename_i a ha
      split at h
      · cases h
      · rename_i r' more hr
        cases h
        exact ⟨rest, a, more, hs, ha, hr⟩

/-- A step that takes a request and answers has run its operation, from a context that allows it. -/
theorem step_next_of_request {s u : State} {turn : Turn} {r : Request} (hn : nextRequest s = some (turn, r))
    (h : step s = .next u) :
    ∃ i t, decode s.cfg.num r.word r.side = .ok i ∧ allowed r.ctx i = true
      ∧ exec i (beginTurn turn s) = .next t ∧ u = afterTurn turn.agent i t := by
  rcases step_next_cases h with ⟨hnone, -⟩ | ⟨turn', r', i, t, hn', hacc, ht, rfl⟩
  · cases hn.symm.trans hnone
  · cases hn.symm.trans hn'
    obtain ⟨hd, hal, -⟩ := acceptRequest_ok hacc
    exact ⟨i, t, hd, hal, ht, rfl⟩

theorem step_of_decodeError {s : State} {turn : Turn} {r : Request} {e : DecodeError}
    (hn : nextRequest s = some (turn, r)) (hd : decode s.cfg.num r.word r.side = .error e) :
    step s = .refused (refusalOf e) := by
  simp only [step, hn, acceptRequest, hd]

theorem step_of_forbidden {s : State} {turn : Turn} {r : Request} {i : Instr}
    (hn : nextRequest s = some (turn, r)) (hd : decode s.cfg.num r.word r.side = .ok i)
    (hal : allowed r.ctx i = false) : step s = .refused .contextForbidden := by
  rw [step_of_decode hn hd, if_pos hal]

theorem step_of_beforeReset {s : State} {turn : Turn} {r : Request} {i : Instr}
    (hn : nextRequest s = some (turn, r)) (hd : decode s.cfg.num r.word r.side = .ok i)
    (hal : allowed r.ctx i = true) (hs : s.started = false) (hi : isReset i = false) :
    step s = .refused .beforeReset := by
  rw [step_of_decode hn hd, if_neg (by simp [hal]), if_pos (by simp [hs, hi])]

theorem step_of_accepted {s : State} {turn : Turn} {r : Request} {i : Instr}
    (hn : nextRequest s = some (turn, r)) (hd : decode s.cfg.num r.word r.side = .ok i)
    (hal : allowed r.ctx i = true) (hs : s.started = true ∨ isReset i = true) : step s = runTurn turn i s := by
  rw [step_of_decode hn hd, if_neg (by simp [hal]), if_neg]
  rcases hs with hs | hs <;> simp [hs]

/-! The agents after a turn -/

/-- The agent a turn chose, with its next requests: what its answer leads it to issue, and the rest of its list. -/
theorem answerRequest_eq_set {agents : List Agent} {k : Nat} {a : Agent} (ha : agents[k]? = some a) (i : Instr)
    (t : State) : answerRequest agents k i t
      = agents.set k { role := a.role, requests := followUp a.role i t ++ a.requests.tail } := by
  refine List.ext_getElem? fun j => ?_
  rw [answerRequest, List.getElem?_modify, List.getElem?_set]
  by_cases hj : k = j
  · subst hj
    obtain ⟨hlt, hget⟩ := List.getElem?_eq_some_iff.mp ha
    simp [hlt, hget]
  · simp [hj]

theorem completed_iff (r : Response) : completed r = true ↔ r ≠ .waiting := by cases r <;> simp [completed]

theorem decode_requestOf {dom : NumDomain} {ctx : Context} {i : Instr} (h : WellFormed dom i = true) :
    decode dom (requestOf ctx i).word (requestOf ctx i).side = .ok i := decode_encode h

theorem isReset_iff (i : Instr) : isReset i = true ↔ i = .reset := by cases i <;> simp [isReset]

theorem followUp_other {role : Role} {i : Instr} (t : State) (hangle : ¬ (role = .angleTask ∧ i = .getAngle))
    (hmode : ¬ (role = .decoderTask ∧ ∃ finite, i = .mdFetch finite)) : followUp role i t = [] := by
  rcases followUp_cases role i t with h | ⟨hr, hi, -⟩ | ⟨hr, hi, -⟩
  · exact h
  · exact absurd ⟨hr, hi⟩ hangle
  · exact absurd ⟨hr, hi⟩ hmode

/-- Settles O6: the step is the operation's run, with the response's follow-up at the head of the agent's list. -/
theorem stepRunsTheDecodedOperation : Obligations.StepRunsTheDecodedOperation := by
  intro s turn rest a r more i hs ha hr hd hal hstart
  have hn := nextRequest_eq_some hs ha hr
  have hrun := step_of_accepted hn hd hal (hstart.imp_right (isReset_iff i).mpr)
  refine ⟨fun t ht => ?_, fun e he => hrun.trans (runTurn_fault.mpr he), fun e he => hrun.trans (runTurn_refused.mpr he)⟩
  obtain ⟨hcfg, hagents, hsched, -⟩ := exec_keeps_environment ht
  have hagents' : t.agents = s.agents := hagents
  have hnum : t.cfg.num = s.cfg.num := congrArg Config.num hcfg
  refine ⟨afterTurn turn.agent i t, hrun.trans (runTurn_next.mpr ⟨t, ht, rfl⟩), ?_, fun hw => ?_, fun hw => ?_⟩
  · have htail : t.sched.tail = rest := by rw [hsched, hs, List.tail_cons]
    simp only [afterTurn, htail]
  · have hc : completed t.resp = false := by rw [hw]; rfl
    simp only [afterTurn, hc, Bool.false_eq_true, if_false, hagents']
  · have hc := (completed_iff t.resp).mpr hw
    refine ⟨followUp a.role i t, ?_, ?_, ?_, followUp_other t⟩
    · simp only [afterTurn, hc, if_true, hagents', answerRequest_eq_set ha, hr, List.tail_cons]
    · rintro hrole rfl
      have hfollow : followUp a.role .getAngle t = (fsmPollRest t.cfg.num t.draws t.resp).map (requestOf .task) := by
        rw [hrole]
        rfl
      refine ⟨fun q hq => ⟨_, by rw [hfollow, hq]; rfl, rfl, ?_⟩, fun hq =>
        ⟨_, freeAnglePort t.cfg.num t.draws, by rw [hfollow, hq]; rfl, rfl, ?_⟩⟩
      · rw [hnum]
        exact decode_requestOf (by cases s.cfg.num <;> rfl)
      · rw [hnum]
        exact decode_requestOf (by cases s.cfg.num <;> rfl)
    · rintro hrole finite rfl
      have hfollow : followUp a.role (.mdFetch finite) t = (mdStepRest t.resp).map (requestOf .task) := by
        rw [hrole]
        rfl
      exact ⟨fun g hg => ⟨_, by rw [hfollow, hg]; rfl, rfl, decode_requestOf rfl⟩, fun hg => by rw [hfollow, hg]; rfl⟩

/-! What the step refuses -/

/-- The table of contexts, by selector (60_exceptions.md section 5, R326). -/
theorem allowed_by_selector (i : Instr) :
    (allowed .interrupt i = true ↔ (selectorOf i).toNat ∈ [0, 5, 8, 13])
    ∧ (allowed .task i = true ↔ (selectorOf i).toNat ∈ [0, 6, 7, 9, 10, 11, 12, 13, 14, 15, 16, 17])
    ∧ (allowed .hardware i = true ↔ (selectorOf i).toNat ∈ [0, 1, 2, 3, 4]) := by
  cases i <;> simp [allowed, selectorOf]

theorem isReset_by_selector (i : Instr) : isReset i = true ↔ (selectorOf i).toNat = 1 := by
  cases i <;> simp [isReset, selectorOf]

theorem runTurn_refused_cases {turn : Turn} {i : Instr} {s : State} {e : Refusal}
    (h : runTurn turn i s = .refused e) :
    e = .riseWhileHigh ∨ e = .fallWhileLow ∨ (e = .frameLength ∧ ∃ f, i = .rxFrame f ∧ 8 < f.len.toNat) :=
  exec_refused (runTurn_refused.mp h)

/-- Settles O7: the word's reasons from the decoder, the context's from the table, then the missing `RESET`; the
operations themselves refuse for other reasons. -/
theorem stepRefusesWhatTheInterfaceDoesNotAccept : Obligations.StepRefusesWhatTheInterfaceDoesNotAccept := by
  intro s turn r hn
  refine ⟨fun h => step_of_decodeError hn (decode_reserved h),
    fun h hlen => step_of_decodeError hn (decode_rxFrame_error h hlen), fun i n hd hsel => ?_⟩
  have hn' : (selectorOf i).toNat = n := by rw [decode_selector hd, hsel]; rfl
  obtain ⟨hinterrupt, htask, hhardware⟩ := allowed_by_selector i
  rw [hn'] at hinterrupt htask hhardware
  have hforbidden (hal : ¬ allowed r.ctx i = true) : step s = .refused .contextForbidden :=
    step_of_forbidden hn hd (Bool.eq_false_iff.mpr hal)
  refine ⟨fun hc hmem => hforbidden ?_, fun hc hmem => hforbidden ?_, fun hc hmem => hforbidden ?_, fun hrow => ?_⟩
  · rw [hc, hinterrupt]
    simp only [List.mem_cons, List.not_mem_nil, or_false] at hmem ⊢
    omega
  · rw [hc, htask]
    simp only [List.mem_cons, List.not_mem_nil, or_false] at hmem ⊢
    omega
  · rw [hc, hhardware]
    simp only [List.mem_cons, List.not_mem_nil, or_false] at hmem ⊢
    omega
  · have hal : allowed r.ctx i = true := by
      rcases hrow with ⟨hc, hmem⟩ | ⟨hc, hmem⟩ | ⟨hc, hmem⟩
      · rw [hc]
        exact hinterrupt.mpr hmem
      · rw [hc]
        exact htask.mpr hmem
      · rw [hc]
        exact hhardware.mpr hmem
    have hreset : isReset i = true ↔ n = 1 := by rw [isReset_by_selector, hn']
    have hruns (hs : s.started = true ∨ isReset i = true) (e : Refusal) (h : step s = .refused e) :
        e = .riseWhileHigh ∨ e = .fallWhileLow ∨ (e = .frameLength ∧ ∃ f, i = .rxFrame f ∧ 8 < f.len.toNat) :=
      runTurn_refused_cases ((step_of_accepted hn hd hal hs).symm.trans h)
    refine ⟨fun h => ?_, fun hs h1 => step_of_beforeReset hn hd hal hs (Bool.eq_false_iff.mpr (mt hreset.mp h1)),
      fun hs h => ?_⟩
    · by_cases hs : s.started = true ∨ isReset i = true
      · rcases hruns hs _ h with h' | h' | ⟨h', -⟩ <;> cases h'
      · rw [not_or, Bool.not_eq_true, Bool.not_eq_true] at hs
        cases (step_of_beforeReset hn hd hal hs.1 hs.2).symm.trans h
    · rcases hruns (hs.imp_right hreset.mpr) _ h with h' | h' | ⟨h', -⟩ <;> cases h'

/-! What the contexts protect -/

/-- Whoever changes the pair of the capture cell (60_exceptions.md R327). -/
theorem exec_changes_pair {i : Instr} {s t : State} (h : exec i s = .next t)
    (hne : t.periodTicks ≠ s.periodTicks ∨ t.pulseTicks ≠ s.pulseTicks) :
    (∃ period pulse, i = .capture period pulse) ∨ i = .rise ∨ i = .reset := by
  cases i with
  | capture period pulse => exact .inl ⟨period, pulse, rfl⟩
  | rise => exact .inr (.inl rfl)
  | reset => exact .inr (.inr rfl)
  | _ =>
    rw [exec_frame h] at hne
    exact absurd ⟨rfl, rfl⟩ (not_and_or.mpr hne)

/-- Whoever changes the frame of the mailbox (60_exceptions.md R327). -/
theorem exec_changes_mb {i : Instr} {s t : State} (h : exec i s = .next t) (hne : t.mb ≠ s.mb) :
    (∃ f, i = .rxFrame f) ∨ i = .reset := by
  cases i with
  | rxFrame f => exact .inl ⟨f, rfl⟩
  | reset => exact .inr rfl
  | _ =>
    rw [exec_frame h] at hne
    exact absurd rfl hne

/-- Settles O8: the frame of each operation, and the contexts from which the changing ones are allowed. -/
theorem contextsProtectTheCells : Obligations.ContextsProtectTheCells := by
  intro s u turn r i hn hd hstep
  obtain ⟨i', t, hd', hal, ht, rfl⟩ := step_next_of_request hn hstep
  cases hd.symm.trans hd'
  refine ⟨fun hne => ?_, fun hne => ?_, fun hc hw => ?_⟩
  · rcases exec_changes_pair ht hne with ⟨period, pulse, rfl⟩ | rfl | rfl
    · exact .inl ⟨by cases hc : r.ctx <;> simp [hc, allowed] at hal ⊢, period, pulse, rfl⟩
    · exact .inr ⟨by cases hc : r.ctx <;> simp [hc, allowed] at hal ⊢, .inl rfl⟩
    · exact .inr ⟨by cases hc : r.ctx <;> simp [hc, allowed] at hal ⊢, .inr rfl⟩
  · rcases exec_changes_mb ht hne with ⟨f, rfl⟩ | rfl
    · exact .inl ⟨by cases hc : r.ctx <;> simp [hc, allowed] at hal ⊢, f, rfl⟩
    · exact .inr ⟨by cases hc : r.ctx <;> simp [hc, allowed] at hal ⊢, rfl⟩
  · rw [hc] at hal
    rcases (exec_waiting ht hw).2 with ⟨f, rfl⟩ | ⟨f, rfl⟩ | ⟨m, c, f, rfl⟩ <;> cases hal

/-- Settles O9: what waits has changed the response only. -/
theorem waitingRequestKeepsItsPlace : Obligations.WaitingRequestKeepsItsPlace := by
  intro s u hstep hresp hsome
  rcases step_next_cases hstep with ⟨hnone, -⟩ | ⟨turn, r, i, t, -, -, ht, rfl⟩
  · exact absurd hnone hsome
  · obtain ⟨rfl, -⟩ := exec_waiting ht hresp
    refine ⟨fun g => ?_, rfl, rfl, rfl⟩
    cases g <;> simp [sameGroup, afterTurn, readEv]

end Sys2Proof.Machine

/-! PROOFS. The agents of the table: what following one's row gives, what a step leaves of an agent's list, and the
statement O60 (60_exceptions.md R327, R330; 70_reset_and_hazards.md R359 to R361). -/

namespace Sys2Proof.Machine

open Sys2Proof

/-! One agent -/

/-- An agent on its row: its requests name operations of the row, from contexts of the row, in the row's order. -/
theorem followsRow_iff {dom : NumDomain} {a : Agent} : followsRow dom a = true ↔
    (∀ r ∈ a.requests, ∃ i, decode dom r.word r.side = .ok i ∧ issues a.role r.ctx i = true)
      ∧ inOrder a.role (remaining dom a) = true := by
  rw [followsRow, Bool.and_eq_true, List.all_eq_true]
  refine and_congr_left fun _ => forall₂_congr fun r _ => ?_
  cases decode dom r.word r.side <;> simp

/-- The operations of a list of requests, less the idle ones. -/
def operations (dom : NumDomain) (l : List Request) : List Instr :=
  l.filterMap fun r =>
    match decode dom r.word r.side with
    | .ok .idle => none
    | .ok i => some i
    | .error _ => none

theorem remaining_eq_operations (dom : NumDomain) (a : Agent) : remaining dom a = operations dom a.requests := rfl

theorem operations_cons {dom : NumDomain} {r : Request} {i : Instr} (h : decode dom r.word r.side = .ok i)
    (l : List Request) :
    (i = .idle ∧ operations dom (r :: l) = operations dom l) ∨ operations dom (r :: l) = i :: operations dom l := by
  simp only [operations, List.filterMap_cons, h]
  cases i
  case idle => exact .inl ⟨rfl, rfl⟩
  all_goals exact .inr rfl

theorem operations_requestOf {dom : NumDomain} {i : Instr} (hwf : WellFormed dom i = true) (hi : i ≠ .idle)
    (ctx : Context) (l : List Request) : operations dom (requestOf ctx i :: l) = i :: operations dom l :=
  (operations_cons (decode_requestOf hwf) l).resolve_left fun h => hi h.1

/-! The order of a row -/

/-- The angle task's list: `GET_ANGLE`s, perhaps after the second half of a pass. -/
theorem inOrder_angleTask_iff (l : List Instr) : inOrder .angleTask l = true ↔
    l.all isGetAngle = true ∨ ∃ valid x rest, l = .fsmSample valid x :: rest ∧ rest.all isGetAngle = true := by
  cases l with
  | nil => simp [inOrder]
  | cons i rest => cases i <;> simp [inOrder, isGetAngle, selectorOf]

/-- The decoder task's list: `MD_FETCH`es, perhaps after the second half of a pass. -/
theorem inOrder_decoderTask_iff (l : List Instr) : inOrder .decoderTask l = true ↔
    l.all isMdFetch = true ∨ ∃ rest, l = .mdApply :: rest ∧ rest.all isMdFetch = true := by
  cases l with
  | nil => simp [inOrder]
  | cons i rest => cases i <;> simp [inOrder, isMdFetch, selectorOf]

theorem inOrder_initialisation_iff (l : List Instr) : inOrder .initialisation l = true ↔
    l = [] ∨ l = [.reset] ∨ ∃ c b, l = [.btSynth c b] ∨ l = [.reset, .btSynth c b] := by
  simp only [inOrder]
  split <;> simp_all

/-- What is left when the first operation has been answered is in order again. -/
theorem inOrder_tail {role : Role} {i : Instr} {l : List Instr} (h : inOrder role (i :: l) = true) :
    inOrder role l = true := by
  cases role with
  | angleTask =>
    rcases (inOrder_angleTask_iff _).mp h with hall | ⟨valid, x, rest, heq, hall⟩
    · rw [List.all_cons, Bool.and_eq_true] at hall
      exact (inOrder_angleTask_iff _).mpr (.inl hall.2)
    · cases heq
      exact (inOrder_angleTask_iff _).mpr (.inl hall)
  | decoderTask =>
    rcases (inOrder_decoderTask_iff _).mp h with hall | ⟨rest, heq, hall⟩
    · rw [List.all_cons, Bool.and_eq_true] at hall
      exact (inOrder_decoderTask_iff _).mpr (.inl hall.2)
    · cases heq
      exact (inOrder_decoderTask_iff _).mpr (.inl hall)
  | initialisation =>
    rcases (inOrder_initialisation_iff _).mp h with heq | heq | ⟨c, b, heq | heq⟩ <;> cases heq <;> rfl
  | _ => rfl

/-- After the angle task's `GET_ANGLE` its `FSM_SAMPLE` is in order, after the decoder task's `MD_FETCH` its
`MD_APPLY`. -/
theorem inOrder_fsmSample {l : List Instr} (valid : Bool) (x : AnglePort)
    (h : inOrder .angleTask (.getAngle :: l) = true) : inOrder .angleTask (.fsmSample valid x :: l) = true := by
  rcases (inOrder_angleTask_iff _).mp h with hall | ⟨_, _, _, heq, -⟩
  · rw [List.all_cons, Bool.and_eq_true] at hall
    exact hall.2
  · cases heq

theorem inOrder_mdApply {l : List Instr} (finite : Bool) (h : inOrder .decoderTask (.mdFetch finite :: l) = true) :
    inOrder .decoderTask (.mdApply :: l) = true := by
  rcases (inOrder_decoderTask_iff _).mp h with hall | ⟨_, heq, -⟩
  · rw [List.all_cons, Bool.and_eq_true] at hall
    exact hall.2
  · cases heq

/-- An agent on its row is on it again when its first request has been answered (60_exceptions.md R330). -/
theorem followsRow_answered {dom : NumDomain} {a : Agent} {r : Request} {more : List Request} {i : Instr} {t : State}
    (ha : a.requests = r :: more) (hd : decode dom r.word r.side = .ok i) (hnum : t.cfg.num = dom)
    (h : followsRow dom a = true) :
    followsRow dom { role := a.role, requests := followUp a.role i t ++ more } = true := by
  obtain ⟨hrow, horder⟩ := followsRow_iff.mp h
  rw [remaining_eq_operations, ha] at horder
  rw [ha] at hrow
  have hmore : ∀ q ∈ more, ∃ j, decode dom q.word q.side = .ok j ∧ issues a.role q.ctx j = true :=
    fun q hq => hrow q (List.mem_cons_of_mem r hq)
  rw [followsRow_iff, remaining_eq_operations]
  rcases followUp_cases a.role i t with hf | ⟨hrole, rfl, valid, x, hx, hf⟩ | ⟨hrole, ⟨finite, rfl⟩, hf⟩
  · simp only [hf, List.nil_append]
    refine ⟨hmore, ?_⟩
    rcases operations_cons hd more with ⟨-, hops⟩ | hops
    · rwa [hops] at horder
    · exact inOrder_tail (hops ▸ horder)
  · have hwf : WellFormed dom (.fsmSample valid x) = true := hnum ▸ hx
    simp only [hf, List.singleton_append, operations_requestOf hwf nofun]
    refine ⟨List.forall_mem_cons.mpr ⟨⟨_, decode_requestOf hwf, by rw [hrole]; rfl⟩, hmore⟩, ?_⟩
    rw [(operations_cons hd more).resolve_left nofun, hrole] at horder
    rw [hrole]
    exact inOrder_fsmSample valid x horder
  · have hwf : WellFormed dom .mdApply = true := rfl
    simp only [hf, List.singleton_append, operations_requestOf hwf nofun]
    refine ⟨List.forall_mem_cons.mpr ⟨⟨_, decode_requestOf hwf, by rw [hrole]; rfl⟩, hmore⟩, ?_⟩
    rw [(operations_cons hd more).resolve_left nofun, hrole] at horder
    rw [hrole]
    exact inOrder_mdApply finite horder

/-! The agents of the table -/

/-- How many agents have one of some roles. -/
theorem atMostOne_iff (roles : List Role) (s : State) :
    atMostOne roles s = true ↔ ((s.agents.map Agent.role).countP fun role => decide (role ∈ roles)) ≤ 1 := by
  rw [atMostOne, decide_eq_true_eq, List.countP_map, List.countP_eq_length_filter]
  rfl

theorem tableFollowed_iff (s : State) : tableFollowed s = true ↔
    (∀ a ∈ s.agents, followsRow s.cfg.num a = true)
      ∧ atMostOne [.sensor, .captureInterrupt] s = true ∧ atMostOne [.receiveInterrupt] s = true
      ∧ atMostOne [.initialisation] s = true ∧ atMostOne [.angleTask] s = true
      ∧ atMostOne [.decoderTask, .mailboxReader] s = true ∧ atMostOne [.sender] s = true := by
  simp only [tableFollowed, Bool.and_eq_true, List.all_eq_true, and_assoc]

theorem tableFollowed_of_roles {s t : State} (hroles : t.agents.map Agent.role = s.agents.map Agent.role)
    (hrows : ∀ a ∈ t.agents, followsRow t.cfg.num a = true) (h : tableFollowed s = true) :
    tableFollowed t = true := by
  rw [tableFollowed_iff] at h ⊢
  simp only [atMostOne_iff, hroles] at h ⊢
  exact ⟨hrows, h.2⟩

/-! The roles that issue an operation -/

section Issuers
variable {role : Role} {ctx : Context} {i : Instr}

theorem role_of_writesCapture (hp : writesCapture i = true) (h : issues role ctx i = true) :
    role ∈ [Role.sensor, .captureInterrupt] := by
  cases i <;> simp_all [writesCapture, selectorOf, issues]

theorem role_of_isRxFrame (hp : isRxFrame i = true) (h : issues role ctx i = true) :
    role ∈ [Role.receiveInterrupt] := by
  cases i <;> simp_all [isRxFrame, selectorOf, issues]

theorem role_of_isGetAngle (hp : isGetAngle i = true) (h : issues role ctx i = true) :
    role ∈ [Role.angleTask] := by
  cases i <;> simp_all [isGetAngle, selectorOf, issues]

theorem role_of_isFsmSample (hp : isFsmSample i = true) (h : issues role ctx i = true) :
    role ∈ [Role.angleTask] := by
  cases i <;> simp_all [isFsmSample, selectorOf, issues]

theorem role_of_isMdFetch (hp : isMdFetch i = true) (h : issues role ctx i = true) :
    role ∈ [Role.decoderTask] := by
  cases i <;> simp_all [isMdFetch, selectorOf, issues]

theorem role_of_isRecv (hp : isRecv i = true) (h : issues role ctx i = true) :
    role ∈ [Role.mailboxReader] := by
  cases i <;> simp_all [isRecv, selectorOf, issues]

end Issuers

/-- What an agent that follows its row requests is an operation of its role. -/
theorem role_of_requestsSome {dom : NumDomain} {p : Instr → Bool} {roles : List Role} {a : Agent}
    (hp : ∀ role ctx i, p i = true → issues role ctx i = true → role ∈ roles) (hrow : followsRow dom a = true)
    (h : requestsSome dom p a = true) : a.role ∈ roles := by
  obtain ⟨r, hr, hri⟩ := List.any_eq_true.mp h
  obtain ⟨i, hd, hi⟩ := (followsRow_iff.mp hrow).1 r hr
  simp only [hd] at hri
  exact hp a.role r.ctx i hri hi

/-- Where one agent at most has the roles that issue an operation, one at most requests it. -/
theorem oneIssuer_of_atMostOne {s : State} {p : Instr → Bool} {roles : List Role}
    (hp : ∀ role ctx i, p i = true → issues role ctx i = true → role ∈ roles)
    (hrows : ∀ a ∈ s.agents, followsRow s.cfg.num a = true) (hone : atMostOne roles s = true) :
    oneIssuer p s = true := by
  rw [oneIssuer, decide_eq_true_eq, ← List.countP_eq_length_filter]
  rw [atMostOne, decide_eq_true_eq, ← List.countP_eq_length_filter] at hone
  exact (List.countP_mono_left fun a ha h =>
    decide_eq_true (role_of_requestsSome hp (hrows a ha) h)).trans hone

/-- Two members of a list of at most one are the same. -/
theorem eq_of_length_le_one {α : Type} {l : List α} (hl : l.length ≤ 1) {a b : α} (ha : a ∈ l) (hb : b ∈ l) :
    a = b := by
  match l, hl with
  | [x], _ => rw [List.mem_singleton.mp ha, List.mem_singleton.mp hb]

/-- One kind of reader only: the mailbox has a decoder task or, instead of it, another reader. -/
theorem oneReader_of_table {s : State} (hrows : ∀ a ∈ s.agents, followsRow s.cfg.num a = true)
    (hone : atMostOne [.decoderTask, .mailboxReader] s = true) :
    noIssuer isRecv s = true ∨ noIssuer isMdFetch s = true := by
  by_contra hno
  simp only [not_or, noIssuer, List.all_eq_true, Bool.not_eq_true', not_forall, Bool.not_eq_false] at hno
  obtain ⟨⟨a, ha, hra⟩, b, hb, hrb⟩ := hno
  have hrecv : a.role ∈ [Role.mailboxReader] :=
    role_of_requestsSome (fun _ _ _ => role_of_isRecv) (hrows a ha) hra
  have hfetch : b.role ∈ [Role.decoderTask] :=
    role_of_requestsSome (fun _ _ _ => role_of_isMdFetch) (hrows b hb) hrb
  rw [List.mem_singleton] at hrecv hfetch
  have heq : a = b := eq_of_length_le_one (of_decide_eq_true hone) (List.mem_filter.mpr ⟨ha, by simp [hrecv]⟩)
    (List.mem_filter.mpr ⟨hb, by simp [hfetch]⟩)
  rw [heq, hfetch] at hrecv
  cases hrecv

/-- The agents of the table access each cell singly (60_exceptions.md R327; 70_reset_and_hazards.md R359 to R361). -/
theorem singleAccess_of_tableFollowed {s : State} (h : tableFollowed s = true) : singleAccess s = true := by
  obtain ⟨hrows, hcapture, hreceive, -, hangle, hreader, -⟩ := (tableFollowed_iff s).mp h
  have hwriter := oneIssuer_of_atMostOne (fun _ _ _ => role_of_writesCapture) hrows hcapture
  have hrx := oneIssuer_of_atMostOne (fun _ _ _ => role_of_isRxFrame) hrows hreceive
  have hget := oneIssuer_of_atMostOne (fun _ _ _ => role_of_isGetAngle) hrows hangle
  have hsample := oneIssuer_of_atMostOne (fun _ _ _ => role_of_isFsmSample) hrows hangle
  have hfetch := oneIssuer_of_atMostOne
    (fun _ _ _ hp h => List.mem_append_left [Role.mailboxReader] (role_of_isMdFetch hp h)) hrows hreader
  have hrecv := oneIssuer_of_atMostOne
    (fun _ _ _ hp h => List.mem_cons_of_mem Role.decoderTask (role_of_isRecv hp h)) hrows hreader
  rcases oneReader_of_table hrows hreader with hno | hno
  all_goals simp [singleAccess, hwriter, hrx, hget, hsample, hfetch, hrecv, hno]

/-! The step -/

/-- The request of a turn where the table is followed: an operation of the chosen agent's row. -/
theorem nextRequest_of_tableFollowed {s : State} {turn : Turn} {r : Request} (h : tableFollowed s = true)
    (hn : nextRequest s = some (turn, r)) :
    ∃ a more i, s.agents[turn.agent]? = some a ∧ a.requests = r :: more ∧ followsRow s.cfg.num a = true
      ∧ decode s.cfg.num r.word r.side = .ok i ∧ issues a.role r.ctx i = true := by
  obtain ⟨-, a, more, -, ha, hr⟩ := nextRequest_some hn
  have hrow := ((tableFollowed_iff s).mp h).1 a (List.mem_of_getElem? ha)
  obtain ⟨i, hd, hi⟩ := (followsRow_iff.mp hrow).1 r (by rw [hr]; exact List.mem_cons_self)
  exact ⟨a, more, i, ha, hr, hrow, hd, hi⟩

/-- Where the table is followed the step refuses nothing but a missing `RESET` and an edge the pin cannot make. -/
theorem step_refused_of_tableFollowed {s : State} {e : Refusal} (h : tableFollowed s = true)
    (hstep : step s = .refused e) : e = .beforeReset ∨ e = .riseWhileHigh ∨ e = .fallWhileLow := by
  cases hn : nextRequest s with
  | none => simp [step, hn] at hstep
  | some tr =>
    obtain ⟨turn, r⟩ := tr
    obtain ⟨a, more, i, -, -, -, hd, hi⟩ := nextRequest_of_tableFollowed h hn
    rw [step_of_decode hn hd, if_neg (by simp [issues_allowed hi])] at hstep
    split at hstep
    · cases hstep
      exact .inl rfl
    · rcases runTurn_refused_cases hstep with h' | h' | ⟨-, f, rfl, hlen⟩
      · exact .inr (.inl h')
      · exact .inr (.inr h')
      · have hwf := lengthLegal_iff.mp (wellFormed_of_decode hd)
        omega

theorem afterTurn_keeps_roles {s t : State} {k : Nat} {i : Instr} {a : Agent} (ha : s.agents[k]? = some a)
    (hagents : t.agents = s.agents) : (afterTurn k i t).agents.map Agent.role = s.agents.map Agent.role := by
  simp only [afterTurn]
  split
  · rw [hagents, answerRequest_eq_set ha, List.map_set]
    obtain ⟨hlt, hget⟩ := List.getElem?_eq_some_iff.mp ha
    refine List.ext_getElem? fun j => ?_
    rw [List.getElem?_set, List.length_map]
    by_cases hj : k = j
    · subst hj
      simp [hlt, hget]
    · simp [hj]
  · rw [hagents]

theorem afterTurn_keeps_rows {s t : State} {turn : Turn} {r : Request} {more : List Request} {i : Instr} {a : Agent}
    (ha : s.agents[turn.agent]? = some a) (hr : a.requests = r :: more)
    (hd : decode s.cfg.num r.word r.side = .ok i) (hrows : ∀ b ∈ s.agents, followsRow s.cfg.num b = true)
    (hcfg : t.cfg = s.cfg) (hagents : t.agents = s.agents) :
    ∀ b ∈ (afterTurn turn.agent i t).agents, followsRow s.cfg.num b = true := by
  intro b hb
  simp only [afterTurn] at hb
  split at hb
  · rw [hagents, answerRequest_eq_set ha, hr, List.tail_cons] at hb
    rcases List.mem_or_eq_of_mem_set hb with hmem | rfl
    · exact hrows b hmem
    · exact followsRow_answered hr hd (by rw [hcfg]) (hrows a (List.mem_of_getElem? ha))
  · rw [hagents] at hb
    exact hrows b hb

theorem step_keeps_tableFollowed {s u : State} (h : tableFollowed s = true) (hstep : step s = .next u) :
    tableFollowed u = true := by
  rcases step_next_cases hstep with ⟨-, rfl⟩ | ⟨turn, r, i, t, hn, hacc, ht, rfl⟩
  · exact h
  · obtain ⟨a, more, j, ha, hr, -, hdj, -⟩ := nextRequest_of_tableFollowed h hn
    obtain ⟨hd, -⟩ := acceptRequest_ok hacc
    obtain ⟨hcfg, hagents, -⟩ := exec_keeps_environment ht
    have hcfg' : t.cfg = s.cfg := hcfg
    refine tableFollowed_of_roles (afterTurn_keeps_roles ha hagents) ?_ h
    have hnum : (afterTurn turn.agent i t).cfg.num = s.cfg.num := congrArg Config.num hcfg'
    rw [hnum]
    exact afterTurn_keeps_rows ha hr hd ((tableFollowed_iff s).mp h).1 hcfg' hagents

/-- Settles O60. -/
theorem everyStepKeepsTheContracts : Obligations.EveryStepKeepsTheContracts := by
  refine ⟨fun s h => ⟨singleAccess_of_tableFollowed h, fun hr => ?_, fun hr => ?_, fun hr => ?_⟩,
    fun s t => step_keeps_tableFollowed, fun s t h hstep => ?_⟩
  · rcases step_refused_of_tableFollowed h hr with h' | h' | h' <;> cases h'
  · rcases step_refused_of_tableFollowed h hr with h' | h' | h' <;> cases h'
  · rcases step_refused_of_tableFollowed h hr with h' | h' | h' <;> cases h'
  · rw [disciplined, Bool.and_eq_true] at h ⊢
    have ht := step_keeps_tableFollowed h.1 hstep
    exact ⟨ht, singleAccess_of_tableFollowed ht⟩

end Sys2Proof.Machine
